-- ==== Sys2Proof/Word.lean ====
section
/-! DEFINITION. The words of the VGT410 model: bytes, timebase values, digests, and the name of a
flash port. Plain names only; every computation on them stands in a file under Machine/. -/

namespace Sys2Proof

/-- One byte as it travels on the lanes (R4, R12). -/
abbrev Byte := BitVec 8

/-- A value of the 32-bit microsecond timebase (R184). -/
abbrev Time := BitVec 32

/-- The 32 bytes of a SHA-256 output, the first byte in the most significant place (R192: the
digests keep the order in which the function produces its bytes). -/
abbrev Digest := BitVec 256

/-- A downstream port and the flash device on it: DN0 behind UCS0_N, DN1 behind UCS1_N (R1). -/
inductive Port where
  | p0
  | p1
deriving DecidableEq, Repr

end Sys2Proof
end

