-- ==== Sys2Proof/Syntax.lean ====
section
/-! DEFINITION. The commands of the VGT410: one constructor per row of spec/opcode_table.json. A row
is an event at the part's pins, the end of a read on a flash port, or the expiry of a timer; its
operands are what the outside world brings to that event. -/

namespace Sys2Proof

/-- The commands. Bytes are operands in the order in which they cross the lanes (R12, R192). -/
inductive Instr where
  /-- RESET (R55): a power-on reset or an assertion of RST_N. -/
  | reset
  /-- RESET_END (R55): RST_N deasserted, or the internal power-on reset complete. -/
  | resetEnd
  /-- IDENTITY_READ_END (R58): the three bytes of a 9Fh read of the MANIFEST job, as received. -/
  | identityReadEnd (b0 b1 b2 : Byte)
  /-- HEADER_READ_END (R59): the 128 bytes of an anchor header, as received. -/
  | headerReadEnd (bytes : List Byte)
  /-- BODY_READ_END (R62): the bytes at offsets 128 to L + 63 of a candidate, as received. -/
  | bodyReadEnd (bytes : List Byte)
  /-- UPSTREAM_CS_ASSERT (R1): UCS0_N or UCS1_N is asserted. -/
  | upstreamCsAssert (port : Port)
  /-- COMMAND_BYTE (R5): the eighth bit of the open transaction's command byte. -/
  | commandByte (b : Byte)
  /-- ADDRESS_COMPLETE (R9): the address bytes of the open transaction, most significant first. -/
  | addressComplete (bytes : List Byte)
  /-- READ_DATA_BYTE (R20): a whole data byte, with the value flash returned for it. -/
  | readDataByte (b : Byte)
  /-- UPSTREAM_CS_DEASSERT (R1): UCS0_N or UCS1_N is deasserted. -/
  | upstreamCsDeassert (port : Port)
  /-- FETCH (R173): the code byte 00h of an escape transaction. -/
  | fetch
  /-- UNKNOWN_REQUEST (R174): a request with a code outside 00h..0Ch, up to its length byte. -/
  | unknownRequest (tag code : Byte)
  /-- STATUS (R177), code 01h, no parameters. -/
  | status (tag : Byte)
  /-- VERDICTS (R178), code 02h: the region mask's two bytes as sent, and the format. -/
  | verdicts (tag mask0 mask1 format : Byte)
  /-- FAULT_READ (R163), code 03h: the depth. -/
  | faultRead (tag depth : Byte)
  /-- FAULT_ACK (R164), code 04h, no parameters. -/
  | faultAck (tag : Byte)
  /-- REARM (R150), code 05h: the gate mask. -/
  | rearm (tag gates : Byte)
  /-- FORCE_OFF (R151), code 06h: the gate mask. -/
  | forceOff (tag gates : Byte)
  /-- SETTINGS (R180), code 07h: its eight parameter bytes as sent. -/
  | settings (tag holdoff0 holdoff1 patrol0 patrol1 alert printSet scanSet interval : Byte)
  /-- LOCK (R180), code 08h, no parameters. -/
  | lock (tag : Byte)
  /-- FILL_MASK (R181), code 09h: the sixteen flags' two bytes as sent. -/
  | fillMask (tag mask0 mask1 : Byte)
  /-- TIME (R181), code 0Ah, no parameters. -/
  | time (tag : Byte)
  /-- DOZE (R182), code 0Bh, no parameters. -/
  | doze (tag : Byte)
  /-- ADVANCE (R35), code 0Ch, no parameters. -/
  | advance (tag : Byte)
  /-- FUSE_BIT_VERIFY (R36): whether the bit just programmed reads blown at its verify. -/
  | fuseBitVerify (blown : Bool)
  /-- FETCH_DATA_BYTE (R107): a whole data byte of the FILL or PATROL read in progress. -/
  | fetchDataByte (b : Byte)
  /-- PORT_AVAILABLE (R122): the fill holdoff of a port elapses. -/
  | portAvailable (port : Port)
  /-- SEQUENCE_TIMER_EXPIRY (R140): the print gate's sequence timer expires. -/
  | sequenceTimerExpiry
  /-- PATROL_TIMER_EXPIRY (R130). -/
  | patrolTimerExpiry
  /-- DEADLINE_EXPIRY (R156). -/
  | deadlineExpiry
  /-- TAMPER_SAMPLE (R153): the 1 ms sample of TMPR_IN, true when the input is high (asserted). -/
  | tamperSample (high : Bool)
  /-- ALERT_PULSE_END (R168): the 2 µs asserted time of a pulse ends. -/
  | alertPulseEnd
  /-- ALERT_GAP_END (R168): the 2 µs deasserted time ends. -/
  | alertGapEnd
  /-- WAKE_EDGE (R187): a rising edge on WAKE. -/
  | wakeEdge
  /-- SETTLE_TIMER_EXPIRY (R188): the 1000 µs settle timer expires. -/
  | settleTimerExpiry
  /-- WAKE_IDENTITY_READ_END (R136): the three bytes of a 9Fh read of the WAKE job. -/
  | wakeIdentityReadEnd (b0 b1 b2 : Byte)
  /-- WAKE_CHECK (R188): the bytes of the third wake read, from offset 0 of the active anchor: the
  128 header bytes, and the rest of the body when the header's body length is in range. -/
  | wakeCheck (bytes : List Byte)
  /-- REQUEST_LENGTH_BYTE (R174): a request with a known code, up to its length byte. -/
  | requestLengthByte (code tag length : Byte)
deriving DecidableEq, Repr

end Sys2Proof
end

