-- ==== Sys2Proof/Machine/Crc32.lean ====
section
/-! DEFINITION. The CRC-32 of the key store check (R26). -/

namespace Sys2Proof.Machine

/-- One bit of the division, least significant bit first, by the generator 04C11DB7h read in that
bit order (EDB88320h) (R26). -/
def crc32Bit (c : BitVec 32) : BitVec 32 :=
  if c.getLsbD 0 then (c >>> 1) ^^^ 0xEDB88320#32 else c >>> 1

/-- One byte enters the CRC. -/
def crc32Byte (c : BitVec 32) (b : Byte) : BitVec 32 :=
  (List.range 8).foldl (fun c _ => crc32Bit c) (c ^^^ b.setWidth 32)

/-- The CRC-32 of R26: generator 04C11DB7h, least significant bit first, starting value FFFFFFFFh,
final complement. -/
def crc32 (bytes : List Byte) : BitVec 32 := ~~~ bytes.foldl crc32Byte 0xFFFFFFFF#32

end Sys2Proof.Machine
end

