-- ==== Sys2Proof/Config.lean ====
section
/-! DEFINITION. The free values: what the manual leaves open and the part nevertheless produces. Each
is an uninterpreted constant, so nothing proved of the model can rest on a value of it. -/

namespace Sys2Proof

/-- The parity of a segment table entry: "a check value over the expected digest and the region
index" (5.3, R81), whose function and width the manual does not give (assumption log 5). -/
opaque Config.segParity : Digest → Nat → BitVec 8

/-- Whether the fuse bit whose program step was under way when a reset or an entry to HALTED cut
the ADVANCE operation reads blown afterward (R39: "reads either blown or unblown"). The argument is
the model's counter of free values drawn (assumption log 3). -/
opaque Config.cutBitBlown : Nat → Bool

/-- The outcome of the signature check under a key slot whose 64 bytes are no point of the P-256
curve (R50 names ECDSA over P-256 and says nothing of such a key): key, manifest digest, r and s
(assumption log 7). -/
opaque Config.offCurveSignature : List Byte → Digest → Nat → Nat → Bool

end Sys2Proof
end

