-- ==== Sys2Proof/Machine/Sha256.lean ====
section
/-! DEFINITION. SHA-256, "the published 256-bit digest function" of the manual's abbreviations table,
taken byte by byte so that a context can hold a partial digest (6.1, R97, R100). The function is that
of FIPS 180-4, which the manual names and does not repeat (assumption log 6). -/

namespace Sys2Proof.Machine

/-- The eight working words of SHA-256. -/
structure ShaWords where
  a : BitVec 32
  b : BitVec 32
  c : BitVec 32
  d : BitVec 32
  e : BitVec 32
  f : BitVec 32
  g : BitVec 32
  h : BitVec 32
deriving DecidableEq, Repr

/-- A partial SHA-256 state: the words after the last whole 64-byte block, the bytes taken since
then (latest first), and how many bytes have been taken in all. -/
structure Sha where
  words : ShaWords
  tail : List Byte
  count : Nat
deriving DecidableEq, Repr

/-- The initial hash value of FIPS 180-4, 5.3.3. -/
def Sha.initWords : ShaWords :=
  ⟨0x6a09e667, 0xbb67ae85, 0x3c6ef372, 0xa54ff53a, 0x510e527f, 0x9b05688c, 0x1f83d9ab, 0x5be0cd19⟩

/-- A fresh running digest: no byte taken. -/
def Sha.fresh : Sha := ⟨Sha.initWords, [], 0⟩

/-- The sixty-four round constants of FIPS 180-4, 4.2.2. -/
def Sha.roundConstants : List (BitVec 32) :=
  [0x428a2f98, 0x71374491, 0xb5c0fbcf, 0xe9b5dba5, 0x3956c25b, 0x59f111f1, 0x923f82a4, 0xab1c5ed5] ++
  [0xd807aa98, 0x12835b01, 0x243185be, 0x550c7dc3, 0x72be5d74, 0x80deb1fe, 0x9bdc06a7, 0xc19bf174] ++
  [0xe49b69c1, 0xefbe4786, 0x0fc19dc6, 0x240ca1cc, 0x2de92c6f, 0x4a7484aa, 0x5cb0a9dc, 0x76f988da] ++
  [0x983e5152, 0xa831c66d, 0xb00327c8, 0xbf597fc7, 0xc6e00bf3, 0xd5a79147, 0x06ca6351, 0x14292967] ++
  [0x27b70a85, 0x2e1b2138, 0x4d2c6dfc, 0x53380d13, 0x650a7354, 0x766a0abb, 0x81c2c92e, 0x92722c85] ++
  [0xa2bfe8a1, 0xa81a664b, 0xc24b8b70, 0xc76c51a3, 0xd192e819, 0xd6990624, 0xf40e3585, 0x106aa070] ++
  [0x19a4c116, 0x1e376c08, 0x2748774c, 0x34b0bcb5, 0x391c0cb3, 0x4ed8aa4a, 0x5b9cca4f, 0x682e6ff3] ++
  [0x748f82ee, 0x78a5636f, 0x84c87814, 0x8cc70208, 0x90befffa, 0xa4506ceb, 0xbef9a3f7, 0xc67178f2]

/-- The lower-case sigma functions of the message schedule and the upper-case ones of the rounds. -/
def Sha.sigma0 (x : BitVec 32) : BitVec 32 := x.rotateRight 7 ^^^ x.rotateRight 18 ^^^ (x >>> 3)
def Sha.sigma1 (x : BitVec 32) : BitVec 32 := x.rotateRight 17 ^^^ x.rotateRight 19 ^^^ (x >>> 10)
def Sha.bigSigma0 (x : BitVec 32) : BitVec 32 := x.rotateRight 2 ^^^ x.rotateRight 13 ^^^ x.rotateRight 22
def Sha.bigSigma1 (x : BitVec 32) : BitVec 32 := x.rotateRight 6 ^^^ x.rotateRight 11 ^^^ x.rotateRight 25

/-- One round with a schedule word and a round constant. -/
def Sha.round (v : ShaWords) (w k : BitVec 32) : ShaWords :=
  let t1 := v.h + Sha.bigSigma1 v.e + ((v.e &&& v.f) ^^^ (~~~v.e &&& v.g)) + k + w
  let t2 := Sha.bigSigma0 v.a + ((v.a &&& v.b) ^^^ (v.a &&& v.c) ^^^ (v.b &&& v.c))
  ⟨t1 + t2, v.a, v.b, v.c, v.d + t1, v.e, v.f, v.g⟩

/-- The rounds over the remaining constants; `window` holds the sixteen schedule words that come
next, oldest first, and is moved on by one word a round. -/
def Sha.rounds : List (BitVec 32) → List (BitVec 32) → ShaWords → ShaWords
  | [], _, v => v
  | k :: ks, window, v =>
    let w := window.getD 0 0
    let next := Sha.sigma1 (window.getD 14 0) + window.getD 9 0 + Sha.sigma0 (window.getD 1 0) + w
    Sha.rounds ks (window.drop 1 ++ [next]) (Sha.round v w k)

/-- The sixteen big-endian words of a 64-byte block. -/
def Sha.blockWords : List Byte → List (BitVec 32)
  | b0 :: b1 :: b2 :: b3 :: rest => (b0 ++ b1 ++ b2 ++ b3 : BitVec 32) :: Sha.blockWords rest
  | _ => []

/-- The hash value after one more whole block. -/
def Sha.compress (v : ShaWords) (block : List Byte) : ShaWords :=
  let r := Sha.rounds Sha.roundConstants (Sha.blockWords block) v
  ⟨v.a + r.a, v.b + r.b, v.c + r.c, v.d + r.d, v.e + r.e, v.f + r.f, v.g + r.g, v.h + r.h⟩

/-- One byte enters the running digest (R97: a context is extended by one byte at a time). -/
def Sha.push (t : Sha) (b : Byte) : Sha :=
  if t.tail.length = 63 then
    ⟨Sha.compress t.words (b :: t.tail).reverse, [], t.count + 1⟩
  else
    ⟨t.words, b :: t.tail, t.count + 1⟩

/-- The padding of FIPS 180-4, 5.1.1: 80h, zeros, and the length in bits as eight bytes. -/
def Sha.padding (count : Nat) : List Byte :=
  let bits : BitVec 64 := BitVec.ofNat 64 (8 * count)
  0x80#8 :: (List.replicate ((119 - count % 64) % 64) 0#8 ++
    (List.range 8).map (fun i => (bits >>> (8 * (7 - i))).setWidth 8))

/-- The digest of the bytes taken. -/
def Sha.final (t : Sha) : Digest :=
  let v := ((Sha.padding t.count).foldl Sha.push t).words
  v.a ++ v.b ++ v.c ++ v.d ++ v.e ++ v.f ++ v.g ++ v.h

/-- The SHA-256 digest of a whole list of bytes (R49, R50). -/
def sha256 (bytes : List Byte) : Digest := (bytes.foldl Sha.push Sha.fresh).final

end Sys2Proof.Machine
end

