-- ==== Sys2Proof/Machine/State.lean ====
section
/-! DEFINITION. The state of the VGT410, block by block as the manual lists its functional blocks
(00_scope.md), and its value right after reset. Every field is plain data. -/

namespace Sys2Proof.Machine

/-! ## The trust store (2.1) -/

/-- A key slot's fuses: provisioned flag, 64-byte public key, check value (R25, R26). -/
structure KeySlot where
  provisioned : Bool
  key : List Byte
  check : BitVec 32
deriving DecidableEq, Repr

/-- A lane count of 1, 2 or 4. -/
inductive Lanes where
  | one
  | two
  | four
deriving DecidableEq, Repr

/-- 3-byte or 4-byte addressing (R10, R34). -/
inductive AddrMode where
  | three
  | four
deriving DecidableEq, Repr

/-- The engine read command's fuses (2.1, R34). -/
structure EngineCommand where
  provisioned : Bool
  command : Byte
  address : AddrMode
  addressLanes : Lanes
  dataLanes : Lanes
  dummy : BitVec 4
deriving DecidableEq, Repr

/-- The one-time fuses (2.1). `rows` holds the eight rollback rows of 63 bits, class 0 first;
the anchor bases count units of four segments, the recovery window counts segments (R32, R33). -/
structure Fuses where
  slots : List KeySlot
  revoked : BitVec 4
  rows : List (BitVec 63)
  primaryBase : BitVec 8
  fallbackBase : BitVec 8
  recoveryBase : BitVec 10
  recoveryCount : BitVec 8
  engineCommand : EngineCommand
deriving DecidableEq, Repr

/-- A fuse bit that ADVANCE is to program: the next bit of a rollback row, or a slot's revocation
flag (R36). -/
inductive FuseTarget where
  | row (c : Nat)
  | flag (slot : Nat)
deriving DecidableEq, Repr

/-! ## Settings (3.5) -/

inductive AlertMode where
  | level
  | pulse
deriving DecidableEq, Repr

inductive UnlistedAction where
  | pass
  | block
deriving DecidableEq, Repr

/-- The settings in force (R46, R48). The trigger sets hold bit 0 DEADLINE, bit 1 TAMPER, bit 2
BLOCKED, bit 3 WRITE_DENIED (12.1). -/
structure Settings where
  deadline : Nat
  interval : Nat
  holdoff : Nat
  patrol : Nat
  alertMode : AlertMode
  printSet : BitVec 4
  scanSet : BitVec 4
  unlisted : UnlistedAction
deriving DecidableEq, Repr

/-! ## Class tables (1.2) -/

inductive CommandClass where
  | read
  | program
  | erase
  | mode4
  | mode3
  | pass
  | block
deriving DecidableEq, Repr

inductive AddressLength where
  | zero
  | three
  | four
  | track
deriving DecidableEq, Repr

inductive EraseExtent where
  | kib4
  | kib32
  | kib64
  | whole
deriving DecidableEq, Repr

/-- An entry of a command class table (1.2, R45). -/
structure ClassEntry where
  command : Byte
  cls : CommandClass
  address : AddressLength
  addressLanes : Lanes
  dataLanes : Lanes
  dummy : Nat
  extent : EraseExtent
deriving DecidableEq, Repr

/-! ## Regions and segments (5.1, 5.3) -/

inductive WritePolicy where
  | deny
  | denyTrip
  | allowMark
deriving DecidableEq, Repr

inductive ReadPolicy where
  | pass
  | blank
deriving DecidableEq, Repr

/-- A region record of the region map with its touched flag (R44, R75, R77). -/
structure Region where
  port : Port
  imageClass : Nat
  first : Nat
  count : Nat
  write : WritePolicy
  read : ReadPolicy
  patrol : Bool
  touched : Bool
deriving DecidableEq, Repr

inductive SegState where
  | unseen
  | hashing
  | verified
  | failed
  | dirty
deriving DecidableEq, Repr

/-- A segment table entry in use; an entry out of use is no entry of the list (R79, R80). -/
structure SegEntry where
  seg : Nat
  digest : Digest
  state : SegState
  region : Nat
  parity : BitVec 8
deriving DecidableEq, Repr

/-! ## The manifest as read (3.2 to 3.6) -/

/-- A region record as the bytes of a manifest carry it, before the structure check. -/
structure RawRegion where
  port : Nat
  imageClass : Nat
  first : Nat
  count : Nat
  write : Nat
  read : Nat
  patrol : Nat
  reservedZero : Bool
deriving DecidableEq, Repr

/-- A class entry as the bytes of a manifest carry it, before the structure check. -/
structure RawClass where
  command : Byte
  cls : Nat
  address : Nat
  addressLanes : Nat
  dataLanes : Nat
  dummy : Nat
  extent : Nat
deriving DecidableEq, Repr

inductive Anchor where
  | primary
  | fallback
deriving DecidableEq, Repr

/-- A candidate copy: what a candidate's body becomes before it is accepted (R41, R62). -/
structure CandidateCopy where
  regions : List RawRegion
  classes : List RawClass
  settings : Settings
  digests : List Digest
  bodyDigest : Digest
deriving DecidableEq, Repr

/-- A candidate record (4.1). -/
structure Candidate where
  anchor : Anchor
  header : List Byte
  sequence : Nat
  copy : Option CandidateCopy
deriving DecidableEq, Repr

/-! ## The phase controller (4.1) -/

inductive Phase where
  | hold
  | run
  | recovery
  | halted
deriving DecidableEq, Repr

inductive AuthStep where
  | keyCheck
  | identities
  | headers
  | evaluate
  | done
deriving DecidableEq, Repr

/-- The three bytes of a 9Fh identity, in the order received (R58, R192). -/
structure Identity where
  b0 : Byte
  b1 : Byte
  b2 : Byte
deriving DecidableEq, Repr

/-- The verification context (4.1, R70). -/
structure VerificationContext where
  identity0 : Identity
  identity1 : Identity
  anchor : Anchor
  sequence : Nat
  slot : Nat
  digest : Digest
deriving DecidableEq, Repr

/-- The header values of the active manifest that stay in use after acceptance: the class versions
(R31, R37), the revoke mask (R36) and the port size codes (R43). -/
structure ActiveManifest where
  versions : List Nat
  revoke : BitVec 4
  size0 : Nat
  size1 : Nat
deriving DecidableEq, Repr

/-- The phase controller's state (4.1). -/
structure PhaseControl where
  phase : Phase
  step : AuthStep
  pending0 : Option Identity
  pending1 : Option Identity
  candidates : List Candidate
  context : Option VerificationContext
  bootConfirmed : Bool
  differences : List Int
  manifest : Option ActiveManifest
deriving DecidableEq, Repr

/-! ## The upstream port and the downstream ports (1.1, 1.5) -/

inductive Owner where
  | nobody
  | passThrough
  | fetch
deriving DecidableEq, Repr

/-- What each port holds: the downstream owner, last deselect time and availability (1.5), the
holdoff latched at the last deselect while it runs (R21), the downstream chip select (asserted =
true), the tracked address mode (R10), and the level of the upstream chip select (asserted = true). -/
structure PortState where
  owner : Owner
  deselect : Time
  available : Bool
  holdoff : Option Nat
  select : Bool
  tracked : AddrMode
  upstream : Bool
deriving DecidableEq, Repr

/-- The stage of a transaction (1.1). The stage ENDED is that of no stored record: R1 discards the
record in the event that ends the transaction. -/
inductive Stage where
  | command
  | address
  | dummy
  | data
deriving DecidableEq, Repr

inductive Disposition where
  | pending
  | forward
  | block
  | request
  | drop
deriving DecidableEq, Repr

/-- Where the request channel stands in an escape transaction (10.2): before the code byte; driving
a FETCH frame; waiting for the parameters of an accepted request with this code and tag; or done,
with the rest of the bytes ignored. -/
inductive Channel where
  | awaiting
  | frame (bytes : List Byte)
  | parameters (code tag : Byte)
  | done
deriving DecidableEq, Repr

/-- The decode record of the open transaction (1.1), with what R3 and R9 fix for the rest of it: the
handling chosen at the assertion (WAKING or not), the phase it was decoded under, and the resolved
address length. `received` holds the command byte and the address bytes as they came, and `relayed`, newest
first, the whole bytes that have run on the downstream lanes, in either direction (R18). -/
structure Transaction where
  port : Port
  waking : Bool
  phase : Phase
  stage : Stage
  command : Option Byte
  entry : Option ClassEntry
  addressLength : Nat
  disposition : Disposition
  start : Option Nat
  current : Nat
  received : List Byte
  relayed : List Byte
  channel : Channel
deriving DecidableEq, Repr

/-! ## The context pool (6.1, 6.5, 6.7) -/

inductive Role where
  | verify
  | patrol
deriving DecidableEq, Repr

/-- What feeds a context at this moment (6.1): NONE, or a fetch read. -/
inductive Source where
  | nothing
  | fetch
deriving DecidableEq, Repr

/-- A live hash context (6.1). -/
structure Context where
  seg : Nat
  role : Role
  fill : Nat
  lastAdvance : Time
  source : Source
  digest : Sha
deriving DecidableEq, Repr

/-- The transaction record: the opening segment and the gap mark (R101). -/
structure OpeningRecord where
  seg : Nat
  mark : Bool
deriving DecidableEq, Repr

/-- The context pool: six slots (none = free), the transaction record, and the gap queue, oldest
segment first. -/
structure Pool where
  slots : List (Option Context)
  record : Option OpeningRecord
  gaps : List Nat
deriving DecidableEq, Repr

/-! ## The fetch engine (7.1) -/

inductive Job where
  | idle
  | manifest
  | wake
  | fill
  | patrol
deriving DecidableEq, Repr

/-- The kind of a fetch read (7.1, R135, R136), with the context number for FILL and PATROL. -/
inductive ReadKind where
  | identity
  | header (anchor : Anchor)
  | body
  | fill (slot : Nat)
  | patrol (slot : Nat)
  | wakeIdentity
  | wakeBody
deriving DecidableEq, Repr

/-- The fetch read in progress: port, kind and start address within the port (7.1), and what is sent
downstream for it (R34): the command byte and its lanes, the address bytes in the order they are sent, the lanes
of address and data, dummy clocks, and the number of bytes asked for. A third wake read asks for its
header first. -/
structure FetchRead where
  port : Port
  kind : ReadKind
  start : Nat
  command : Byte
  commandLanes : Lanes
  sent : List Byte
  addressLanes : Lanes
  dataLanes : Lanes
  dummy : Nat
  count : Nat
deriving DecidableEq, Repr

/-- The patrol timer (7.1, R130): its starting timebase value while it runs, none while it is stopped,
and its latched interval in ms. A stopped timer keeps its latched interval, except at reset, which
makes it 0 (assumption log 40). -/
structure PatrolTimer where
  start : Option Time
  interval : Nat
deriving DecidableEq, Repr

/-- The fetch engine (7.1). The wake identities are those read so far by the WAKE job (R136). -/
structure Engine where
  job : Job
  read : Option FetchRead
  cursor : Nat
  timer : PatrolTimer
  due : Bool
  fillMask : BitVec 16
  wake0 : Option Identity
  wake1 : Option Identity
deriving DecidableEq, Repr

/-! ## The gate unit (8.1) -/

inductive GateState where
  | off
  | rising
  | on
  | falling
deriving DecidableEq, Repr

/-- A gate: state, trip latch and requirement mask (8.1). -/
structure Gate where
  state : GateState
  latch : Bool
  mask : BitVec 16
deriving DecidableEq, Repr

/-- The running sequence timer (8.1): its starting timebase value and its latched interval in ms. The
model's own `superseded` says that this start replaced a timer whose interval had already elapsed, so
that one expiry of the replaced timer may still come at this instant (R145; assumption log 37). -/
structure SequenceTimer where
  start : Time
  interval : Nat
  superseded : Bool
deriving DecidableEq, Repr

inductive Deadline where
  | disarmed
  | armed
  | expired
deriving DecidableEq, Repr

/-- The gate unit (8.1), with the timebase value of the last tamper sample, or of the end of reset
before the first (R153). The deadline's expiry time is meaningful while ARMED alone (8.1); what it holds
otherwise is the model's choice (assumption log 41). -/
structure GateUnit where
  print : Gate
  scan : Gate
  timer : Option SequenceTimer
  tamper : Bool
  tamperRun : Nat
  sampledAt : Time
  deadline : Deadline
  deadlineAt : Time
deriving DecidableEq, Repr

/-! ## Faults and the alert line (9.1, 9.5) -/

/-- The eleven fault kinds (9.2). -/
inductive FaultKind where
  | segMismatch
  | patrolMismatch
  | writeDenied
  | blocked
  | deadline
  | tamper
  | manifestRejected
  | noManifest
  | noKey
  | wakeMismatch
  | floorProgram
deriving DecidableEq, Repr

/-- A fault record (9.1). -/
structure FaultRecord where
  kind : FaultKind
  timestamp : Time
  phase : Phase
  region : Option Nat
  segment : Option Nat
  address : Option Nat
  detail : Byte
deriving DecidableEq, Repr

/-- What runs on the ALRT_N line in PULSE mode (R168): nothing, a pulse's 2 µs asserted time, or a
2 µs deasserted time, each with its starting timebase value. -/
inductive AlertTime where
  | idle
  | pulse (start : Time)
  | gap (start : Time)
deriving DecidableEq, Repr

/-- The ALRT_N line (asserted = true), its pending pulse count and its timing (9.5). -/
structure Alert where
  asserted : Bool
  pendingPulses : Nat
  timing : AlertTime
deriving DecidableEq, Repr

/-! ## The request channel (10.1) -/

inductive BufferState where
  | empty
  | working
  | ready
deriving DecidableEq, Repr

/-- The statuses of a reply (10.1, 12.2). -/
inductive Status where
  | ok
  | badRequest
  | badLength
  | locked
  | notAllowed
  | notTripped
  | notReady
  | empty
  | fuseFail
deriving DecidableEq, Repr

/-- The response buffer (10.1). -/
structure Buffer where
  state : BufferState
  tag : Byte
  code : Byte
  status : Option Status
  data : List Byte
deriving DecidableEq, Repr

/-! ## Power control and the output lines (11.2, Pin Functions) -/

inductive PowerState where
  | active
  | enteringDoze
  | doze
  | waking
deriving DecidableEq, Repr

/-- Power control: power state, FPWR (asserted = true), and the settle timer's start while it runs
(11.2). -/
structure PowerControl where
  state : PowerState
  fpwr : Bool
  settle : Option Time
deriving DecidableEq, Repr

/-- The remaining lines, each true when asserted: RST_N or the internal power-on reset, CRST_N,
EPWR, EARM, SCNEN. -/
structure Lines where
  rst : Bool
  crst : Bool
  epwr : Bool
  earm : Bool
  scnen : Bool
deriving DecidableEq, Repr

/-! ## The whole machine -/

/-- Why a command stops the machine. -/
inductive Fault where
  /-- The command's operands are those of no event of the part (Instr.wellFormed). Raised by every
  meaning whose command has such operands. Safe: the hardware has no such event. -/
  | illFormed
deriving DecidableEq, Repr

/-- Why a command is refused. -/
inductive Refusal where
  /-- No meaning yet for the command with this mnemonic. Raised by no arm of exec. Safe. -/
  | notModelled (mnemonic : String)
deriving DecidableEq, Repr

/-- The state of the part and the queue of waiting commands. `drawn` is the model's own counter of
free values; `delivered` is the model's own record of the last whole data byte that the part let the
controller read. -/
structure State where
  pending : List Instr
  fuses : Fuses
  advance : List FuseTarget
  control : PhaseControl
  classTable : List ClassEntry
  settings : Settings
  lock : Bool
  port0 : PortState
  port1 : PortState
  transaction : Option Transaction
  delivered : Option Byte
  regions : List Region
  segments : List SegEntry
  pool : Pool
  engine : Engine
  gates : GateUnit
  faults : List FaultRecord
  alert : Alert
  buffer : Buffer
  power : PowerControl
  lines : Lines
  time : Time
  drawn : Nat
deriving DecidableEq, Repr

/-! ## Reset values -/

/-- An absent key slot: every bit unblown (2.1). -/
def KeySlot.absent : KeySlot := ⟨false, List.replicate 64 0, 0⟩

/-- The engine read command's fuses with every bit unblown. 2.1 gives this content as not provisioned
and no more: the other fields are the model's choice, and nothing reads them while the flag is unblown
(DESIGN CHOICE, assumption log 39). -/
def EngineCommand.unblown : EngineCommand := ⟨false, 0, .three, .one, .one, 0⟩

/-- The trust store of an unprovisioned part: all bits unblown (2.1). -/
def Fuses.unprovisioned : Fuses :=
  { slots := List.replicate 4 KeySlot.absent, revoked := 0, rows := List.replicate 8 0,
    primaryBase := 0, fallbackBase := 0, recoveryBase := 0, recoveryCount := 0,
    engineCommand := EngineCommand.unblown }

/-- The settings in force after reset (R48). -/
def Settings.afterReset : Settings :=
  { deadline := 0, interval := 0, holdoff := 0, patrol := 0, alertMode := .level,
    printSet := 0, scanSet := 0, unlisted := .pass }

/-- The eight stored differences at 0 (R31). -/
def zeroDifferences : List Int := List.replicate 8 0

/-- The phase controller after reset (4.1). -/
def PhaseControl.afterReset : PhaseControl :=
  { phase := .hold, step := .keyCheck, pending0 := none, pending1 := none, candidates := [],
    context := none, bootConfirmed := false, differences := zeroDifferences, manifest := none }

/-- A port after reset, with the level its upstream chip select is held at (1.5, R10). -/
def PortState.afterReset (upstream : Bool) : PortState :=
  { owner := .nobody, deselect := 0, available := !upstream, holdoff := none, select := false,
    tracked := .three, upstream := upstream }

/-- The context pool after reset (R96). -/
def Pool.afterReset : Pool := { slots := List.replicate 6 none, record := none, gaps := [] }

/-- The fetch engine after reset (7.1, R119). -/
def Engine.afterReset : Engine :=
  { job := .manifest, read := none, cursor := 0, timer := ⟨none, 0⟩, due := false, fillMask := 0,
    wake0 := none, wake1 := none }

/-- The gate unit after reset (8.1, R137). -/
def GateUnit.afterReset : GateUnit :=
  { print := ⟨.off, false, 0⟩, scan := ⟨.off, false, 0⟩, timer := none, tamper := false,
    tamperRun := 0, sampledAt := 0, deadline := .disarmed, deadlineAt := 0 }

/-- The alert line after reset (9.5). -/
def Alert.afterReset : Alert := { asserted := false, pendingPulses := 0, timing := .idle }

/-- The response buffer after reset (10.1). -/
def Buffer.afterReset : Buffer := { state := .empty, tag := 0, code := 0, status := none, data := [] }

/-- Power control after reset (R185). -/
def PowerControl.afterReset : PowerControl := { state := .active, fpwr := true, settle := none }

/-- The lines while reset is held: CRST_N asserted, the gate outputs deasserted (R55, R137). -/
def Lines.inReset : Lines := { rst := true, crst := true, epwr := false, earm := false, scnen := false }

/-- The state after a reset event that finds these fuses and upstream chip select levels: "of all
the state the part holds, the fuses of the trust store alone carry over a reset" (R55, R24). The
queue and the counter of free values are the model's own and carry over too. -/
def State.afterReset (pending : List Instr) (fuses : Fuses) (upstream0 upstream1 : Bool)
    (drawn : Nat) : State :=
  { pending := pending, fuses := fuses, advance := [], control := PhaseControl.afterReset,
    classTable := [], settings := Settings.afterReset, lock := false,
    port0 := PortState.afterReset upstream0, port1 := PortState.afterReset upstream1,
    transaction := none, delivered := none, regions := [], segments := [],
    pool := Pool.afterReset, engine := Engine.afterReset, gates := GateUnit.afterReset, faults := [],
    alert := Alert.afterReset, buffer := Buffer.afterReset, power := PowerControl.afterReset,
    lines := Lines.inReset, time := 0, drawn := drawn }

/-- The machine right after the power-on reset event of an unprovisioned part, reset still held and
both upstream chip selects deasserted (R55, R122). -/
def State.reset : State := State.afterReset [] Fuses.unprovisioned false false 0

end Sys2Proof.Machine
end

