-- ==== Sys2Proof/Machine/Operands.lean ====
section
/-! DEFINITION. The byte layouts of chapter 12: how fields lie in request parameters and replies
(R192), the numeric codes of names (12.1 to 12.3), and the clamping of settings values (R47). -/

namespace Sys2Proof.Machine

/-! ## Byte order (R192) -/

/-- The number stored in these bytes, least significant byte first (R192). -/
def leNat : List Byte → Nat
  | [] => 0
  | b :: rest => b.toNat + 256 * leNat rest

/-- The low `n` bytes of a number, least significant byte first (R192). -/
def leBytes : Nat → Nat → List Byte
  | 0, _ => []
  | n + 1, v => BitVec.ofNat 8 v :: leBytes n (v / 256)

/-- The low `n` bytes of a number, most significant byte first: an address as it is sent (R34). -/
def beBytes (n v : Nat) : List Byte := (leBytes n v).reverse

/-- The number whose bytes arrive most significant first: an address (R9). -/
def addressValue (bytes : List Byte) : Nat := bytes.foldl (fun acc b => acc * 256 + b.toNat) 0

/-- A stored difference as a byte in two's complement (R192). -/
def differenceByte (d : Int) : Byte := BitVec.ofInt 8 d

/-- The set of flags stored in two bytes, index 0 in the least significant bit (R192). -/
def flags16 (low high : Byte) : BitVec 16 := high ++ low

/-- A flag as a bit at a place of a byte (12.2). -/
def flagBit (place : Nat) (flag : Bool) : Nat := if flag then 2 ^ place else 0

/-! ## Codes of the formats chapter -/

/-- Phase codes (12.2, STATUS byte 0). -/
def Phase.code : Phase → Nat
  | .hold => 0
  | .run => 1
  | .recovery => 2
  | .halted => 3

/-- Power state codes (12.2, STATUS byte 1). -/
def PowerState.code : PowerState → Nat
  | .active => 0
  | .enteringDoze => 1
  | .doze => 2
  | .waking => 3

/-- Gate state codes (12.2, STATUS bytes 2 and 3). -/
def GateState.code : GateState → Nat
  | .off => 0
  | .rising => 1
  | .on => 2
  | .falling => 3

/-- Deadline codes (12.2, STATUS byte 6). -/
def Deadline.code : Deadline → Nat
  | .disarmed => 0
  | .armed => 1
  | .expired => 2

/-- Fetch job codes (12.2, STATUS byte 9). -/
def Job.code : Job → Nat
  | .idle => 0
  | .manifest => 1
  | .wake => 2
  | .fill => 3
  | .patrol => 4

/-- Active anchor codes (12.2, STATUS byte 10). -/
def activeAnchorCode : Option Anchor → Nat
  | none => 0
  | some .primary => 1
  | some .fallback => 2

/-- Buffer state codes of the FETCH frame (12.2). -/
def BufferState.code : BufferState → Nat
  | .empty => 0
  | .working => 1
  | .ready => 2

/-- Status codes (12.2). -/
def Status.code : Status → Nat
  | .ok => 0
  | .badRequest => 1
  | .badLength => 2
  | .locked => 3
  | .notAllowed => 4
  | .notTripped => 5
  | .notReady => 6
  | .empty => 7
  | .fuseFail => 8

/-- Fault kind codes (12.3). -/
def FaultKind.code : FaultKind → Nat
  | .segMismatch => 1
  | .patrolMismatch => 2
  | .writeDenied => 3
  | .blocked => 4
  | .deadline => 5
  | .tamper => 6
  | .manifestRejected => 7
  | .noManifest => 8
  | .noKey => 9
  | .wakeMismatch => 10
  | .floorProgram => 11

/-- The reasons of a MANIFEST_REJECTED record (3.7, 12.3). -/
inductive RejectReason where
  | noMagic
  | badFormat
  | tooLarge
  | keyAbsent
  | keyRevoked
  | signature
  | rollback
  | structural
deriving DecidableEq, Repr

/-- Reason codes (12.3). -/
def RejectReason.code : RejectReason → Nat
  | .noMagic => 0
  | .badFormat => 1
  | .tooLarge => 2
  | .keyAbsent => 3
  | .keyRevoked => 4
  | .signature => 5
  | .rollback => 6
  | .structural => 7

/-- The detail byte of a MANIFEST_REJECTED record: class in bits 0..2, reason in bits 3..5, anchor in
bit 6, bit 7 zero (12.3). -/
def rejectDetail (anchor : Anchor) (reason : RejectReason) (cls : Nat) : Byte :=
  BitVec.ofNat 8 (cls + 8 * reason.code + (match anchor with | .primary => 0 | .fallback => 64))

/-- The 16 bytes of a fault record (12.3): an absent optional field reads 0 with its presence flag
clear (R192). Bits 3 to 7 of the presence flags, which 12.3 does not name, read 0 (assumption log
35). -/
def FaultRecord.bytes (r : FaultRecord) : List Byte :=
  leBytes 1 r.kind.code ++ leBytes 1 r.phase.code ++ [r.detail] ++
    leBytes 1 (flagBit 0 r.region.isSome + flagBit 1 r.segment.isSome + flagBit 2 r.address.isSome) ++
    leBytes 4 r.timestamp.toNat ++ leBytes 1 (r.region.getD 0) ++ leBytes 1 0 ++
    leBytes 2 (r.segment.getD 0) ++ leBytes 4 (r.address.getD 0)

/-- The FETCH frame of a buffer: state, tag, code, status, data length, data (R173). An EMPTY or
WORKING buffer has no status, which reads 00h, and no data. -/
def Buffer.frame (b : Buffer) : List Byte :=
  match b.state with
  | .empty => leBytes 1 b.state.code ++ [0, 0, 0, 0]
  | .working => leBytes 1 b.state.code ++ [b.tag, b.code, 0, 0]
  | .ready =>
    leBytes 1 b.state.code ++ [b.tag, b.code] ++
      leBytes 1 (match b.status with | some st => st.code | none => 0) ++
      leBytes 1 b.data.length ++ b.data

/-! ## Settings values (R47) -/

/-- The fill holdoff committed for a carried value (R47). -/
def clampHoldoff (v : Nat) : Nat := if 1023 < v then 1023 else v

/-- The patrol interval committed for a carried value: 0, or at least 10 (R47). -/
def clampPatrol (v : Nat) : Nat := if v = 0 then 0 else if v < 10 then 10 else v

/-- The alert mode committed for a carried code (R47). -/
def clampAlertMode (v : Byte) : AlertMode := if v = 0 then .level else .pulse

/-- The unlisted action committed for a carried code (R47). -/
def clampUnlisted (v : Byte) : UnlistedAction := if v = 0 then .pass else .block

/-- The trigger set committed for carried flags: the four defined ones (R47). -/
def clampTriggers (v : Byte) : BitVec 4 := v.setWidth 4

/-- The code of an alert mode (12.1). -/
def AlertMode.code : AlertMode → Nat
  | .level => 0
  | .pulse => 1

/-- The eight bytes that echo the six settings a SETTINGS request carries, in its own layout
(R180, 12.2). -/
def Settings.echo (t : Settings) : List Byte :=
  leBytes 2 t.holdoff ++ leBytes 2 t.patrol ++ leBytes 1 t.alertMode.code ++
    leBytes 1 t.printSet.toNat ++ leBytes 1 t.scanSet.toNat ++ leBytes 1 t.interval

/-! ## Request codes (R174) -/

/-- The parameter length of a known request code, none for a code outside 01h..0Ch (R174). -/
def parameterLength (code : Byte) : Option Nat :=
  match code.toNat with
  | 0x01 => some 0
  | 0x02 => some 3
  | 0x03 => some 1
  | 0x04 => some 0
  | 0x05 => some 1
  | 0x06 => some 1
  | 0x07 => some 8
  | 0x08 => some 0
  | 0x09 => some 2
  | 0x0A => some 0
  | 0x0B => some 0
  | 0x0C => some 0
  | _ => none

/-- The request codes (R174). -/
def codeStatus : Byte := 0x01
def codeVerdicts : Byte := 0x02
def codeFaultRead : Byte := 0x03
def codeFaultAck : Byte := 0x04
def codeRearm : Byte := 0x05
def codeForceOff : Byte := 0x06
def codeSettings : Byte := 0x07
def codeLock : Byte := 0x08
def codeFillMask : Byte := 0x09
def codeTime : Byte := 0x0A
def codeDoze : Byte := 0x0B
def codeAdvance : Byte := 0x0C

/-- The escape byte (R4). -/
def escapeByte : Byte := 0x4E

end Sys2Proof.Machine
end

