-- ==== Sys2Proof/Machine/Flags.lean ====
section
/-! DEFINITION. What the blocks read off the state without changing it: addresses and segments,
regions and their summaries, gate conditions, port availability, the live view, the acceptance of
requests. -/

namespace Sys2Proof.Machine

/-! ## Ports, addresses and segments -/

/-- The other port. -/
def otherPort : Port → Port
  | .p0 => .p1
  | .p1 => .p0

/-- The number of a port in addresses and segment numbers. -/
def portNumber : Port → Nat
  | .p0 => 0
  | .p1 => 1

/-- What the state holds for a port. -/
def State.port (s : State) : Port → PortState
  | .p0 => s.port0
  | .p1 => s.port1

/-- The bytes of a segment. -/
def segmentBytes : Nat := 32768

/-- The size of a port for address arithmetic: what the active manifest declares, and 32 MiB where no
manifest is in force or the port is declared absent (R11, R43). -/
def State.portSize (s : State) (p : Port) : Nat :=
  let code := match s.control.manifest, p with
    | none, _ => 0
    | some m, .p0 => m.size0
    | some m, .p1 => m.size1
  if code = 0 then 2 ^ 25 else 2 ^ (19 + code)

/-- The size that bounds addresses of a resolved length: 3-byte addresses reach at most 16 MiB
(R11). -/
def addressSpace (length size : Nat) : Nat := if length = 3 then min (2 ^ 24) size else size

/-- The address after a data byte, with the wrap of R11. -/
def nextAddress (length size a : Nat) : Nat := if a + 1 < addressSpace length size then a + 1 else 0

/-- The flat address of an address within a port (R11). -/
def flatAddress (p : Port) (a : Nat) : Nat := portNumber p * 2 ^ 25 + a

/-- The port of a global segment number (R76). -/
def segmentPort (g : Nat) : Port := if g / 1024 = 0 then .p0 else .p1

/-- The address within its port of a global segment's first byte (R127). -/
def segmentBase (g : Nat) : Nat := g % 1024 * segmentBytes

/-! ## The region map (R76) and the segment table (5.3) -/

/-- The global number of the segment at a position of a region (R94). -/
def Region.segmentAt (r : Region) (k : Nat) : Nat := portNumber r.port * 1024 + r.first + k

/-- A region holds a global segment (R76). -/
def Region.covers (r : Region) (g : Nat) : Bool :=
  decide (r.port = segmentPort g) && decide (r.first ≤ g % 1024) && decide (g % 1024 < r.first + r.count)

/-- The index of the region that holds a global segment, if any (R76). -/
def State.regionIndex (s : State) (g : Nat) : Option Nat := s.regions.findIdx? (·.covers g)

/-- The region that holds a global segment, if any (R76). -/
def State.regionOf (s : State) (g : Nat) : Option Region := s.regions.find? (·.covers g)

/-- The segment table entry of a global segment, if it is in use (R79). -/
def State.entry (s : State) (g : Nat) : Option SegEntry := s.segments.find? (fun e => e.seg == g)

/-- The state of a global segment, if its entry is in use. -/
def State.segState (s : State) (g : Nat) : Option SegState := (s.entry g).map (·.state)

/-- The summary states of a region (R92, R93). `inProgress` is the manual's PARTIAL. -/
inductive Summary where
  | unseen
  | inProgress
  | verified
  | failed
  | dirty
  | absent
deriving DecidableEq, Repr

/-- Summary codes (12.2, verdict report). -/
def Summary.code : Summary → Nat
  | .unseen => 0
  | .inProgress => 1
  | .verified => 2
  | .failed => 3
  | .dirty => 4
  | .absent => 5

/-- The state of the segment at a position of a region. -/
def State.stateAt (s : State) (r : Region) (k : Nat) : Option SegState := s.segState (r.segmentAt k)

/-- Some segment of a region is in a state. -/
def State.someIn (s : State) (r : Region) (st : SegState) : Bool :=
  (List.range r.count).any (fun k => decide (s.stateAt r k = some st))

/-- The number of a region's segments in state VERIFIED (R94). -/
def State.verifiedCount (s : State) (r : Region) : Nat :=
  (List.range r.count).countP (fun k => decide (s.stateAt r k = some .verified))

/-- Every segment of a region is VERIFIED (R92). -/
def State.allVerified (s : State) (r : Region) : Bool :=
  (List.range r.count).all (fun k => decide (s.stateAt r k = some .verified))

/-- The summary of a region of the map: the first line of R92's table that holds. -/
def State.regionSummary (s : State) (r : Region) : Summary :=
  if s.someIn r .failed then .failed
  else if s.someIn r .dirty then .dirty
  else if s.allVerified r then .verified
  else if s.someIn r .hashing || s.someIn r .verified then .inProgress
  else .unseen

/-- The summary of a region index; an index the map does not hold is ABSENT (R93). -/
def State.summary (s : State) (i : Nat) : Summary :=
  match s.regions[i]? with
  | some r => s.regionSummary r
  | none => .absent

/-- The position of a region's lowest-numbered FAILED segment, FFFFh where there is none (R94). -/
def State.firstFailed (s : State) (r : Region) : Nat :=
  match (List.range r.count).find? (fun k => decide (s.stateAt r k = some .failed)) with
  | some k => k
  | none => 0xFFFF

/-- The smaller of an optional number and a number. -/
def minOption (acc : Option Nat) (n : Nat) : Option Nat :=
  match acc with
  | none => some n
  | some m => some (min m n)

/-- The smallest number of a list. -/
def smallest (l : List Nat) : Option Nat := l.foldl minOption none

/-- The number of entries in use in a state (R95). -/
def State.stateCount (s : State) (st : SegState) : Nat := s.segments.countP (fun e => e.state == st)

/-! ## Anchors and the recovery window (R32, R33) -/

/-- The fused base of an anchor area, in units of four segments (R32). -/
def Fuses.anchorBase (f : Fuses) : Anchor → Nat
  | .primary => f.primaryBase.toNat
  | .fallback => f.fallbackBase.toNat

/-- A global segment lies in an anchor area: four segments of port 0 (R32). -/
def Fuses.inAnchor (f : Fuses) (a : Anchor) (g : Nat) : Bool :=
  decide (4 * f.anchorBase a ≤ g) && decide (g ≤ 4 * f.anchorBase a + 3)

/-- A global segment lies in the recovery window: base to base + count − 1 on port 0, stopping at
segment 1023 (R33). -/
def Fuses.inRecoveryWindow (f : Fuses) (g : Nat) : Bool :=
  decide (f.recoveryBase.toNat ≤ g) && decide (g < f.recoveryBase.toNat + f.recoveryCount.toNat) &&
    decide (g ≤ 1023)

/-! ## Key slots and floors (R25, R29) -/

/-- The key slot of a number. -/
def Fuses.slot (f : Fuses) (i : Nat) : KeySlot := f.slots.getD i KeySlot.absent

/-- A slot is usable when it is provisioned and its revocation flag is unblown (R25). -/
def Fuses.usable (f : Fuses) (i : Nat) : Bool := (f.slot i).provisioned && !f.revoked.getLsbD i

/-- The floor of an image class: the number of blown bits of its row (R29). -/
def Fuses.floor (f : Fuses) (c : Nat) : Nat :=
  (List.range 63).countP (fun i => (f.rows.getD c 0).getLsbD i)

/-- The differences v_c − f_c, class 0 first (R30). -/
def Fuses.differences (f : Fuses) (versions : List Nat) : List Int :=
  (List.range 8).map (fun c => (versions.getD c 0 : Int) - (f.floor c : Int))

/-! ## Gates (R138, R143) -/

/-- EPWR in a state of the print gate (R143). -/
def GateState.powers : GateState → Bool
  | .off => false
  | .rising | .on | .falling => true

/-- EARM in a state of the print gate, and SCNEN in a state of the scan gate (R143). -/
def GateState.arms : GateState → Bool
  | .on => true
  | .off | .rising | .falling => false

/-- Whether any region of a mask is not VERIFIED decides the condition of a gate (R138). -/
def State.gateCondition (s : State) (mask : BitVec 16) : Bool :=
  decide (s.control.phase = .run) && decide (s.power.state = .active) &&
    (List.range 16).all (fun i => !mask.getLsbD i || decide (s.summary i = .verified))

/-- A gate may stand in RISING or ON: its condition holds and its latch is clear (R140). -/
def State.gateGood (s : State) (g : Gate) : Bool := s.gateCondition g.mask && !g.latch

/-- The bits of a trigger set (12.1). -/
inductive Trigger where
  | deadline
  | tamper
  | blocked
  | writeDenied
deriving DecidableEq, Repr

def Trigger.bit : Trigger → Nat
  | .deadline => 0
  | .tamper => 1
  | .blocked => 2
  | .writeDenied => 3

/-- A trigger set holds a trigger (R148). -/
def holdsTrigger (set : BitVec 4) (t : Trigger) : Bool := set.getLsbD t.bit

/-! ## Contexts and ports as the fetch engine sees them -/

/-- A slot holds a live context on this segment. -/
def holdsSegment (g : Nat) : Option Context → Bool
  | some c => c.seg == g
  | none => false

/-- The number of the context that holds a segment (R96: at most one does). -/
def Pool.holder (p : Pool) (g : Nat) : Option Nat := p.slots.findIdx? (holdsSegment g)

/-- The live context of a number. -/
def Pool.context (p : Pool) (i : Nat) : Option Context := p.slots.getD i none

/-- The lowest-numbered free context (R102, R106). -/
def Pool.freeSlot (p : Pool) : Option Nat := p.slots.findIdx? (·.isNone)

/-- Whether a slot holds the PATROL context. -/
def isPatrol : Option Context → Bool
  | some c => c.role == .patrol
  | none => false

/-- The number of the PATROL context, if one is live (R96). -/
def Pool.patrolSlot (p : Pool) : Option Nat := p.slots.findIdx? isPatrol

/-- The number of live contexts (R96, R166). -/
def Pool.liveCount (p : Pool) : Nat := p.slots.countP (·.isSome)

/-- The age of a context (R98). -/
def Context.age (c : Context) (now : Time) : Nat := (now - c.lastAdvance).toNat

/-- The live VERIFY contexts of a pool that meet a test, with their numbers, lowest first. -/
def Pool.verifyContexts (p : Pool) (test : Context → Bool) : List (Nat × Context) :=
  p.slots.zipIdx.filterMap (fun e =>
    match e.1 with
    | some c => if c.role = .verify ∧ test c then some (e.2, c) else none
    | none => none)

/-- The context of greatest age, the first listed among equals (R103, R124). -/
def oldest (now : Time) (l : List (Nat × Context)) : Option (Nat × Context) :=
  l.foldl (fun acc e =>
    match acc with
    | none => some e
    | some best => if best.2.age now < e.2.age now then some e else some best) none

/-- A port can take a FILL or PATROL read: it is available and nobody owns it (R21, R122). -/
def State.portFree (s : State) (p : Port) : Bool :=
  (s.port p).available && decide ((s.port p).owner = .nobody)

/-! ## Command class tables (R5, R8) -/

/-- An entry of the built-in table: single lanes (R8). -/
def builtInEntry (command : Byte) (cls : CommandClass) (address : AddressLength) (dummy : Nat)
    (extent : EraseExtent) : ClassEntry :=
  { command := command, cls := cls, address := address, addressLanes := .one, dataLanes := .one,
    dummy := dummy, extent := extent }

/-- The built-in table of RECOVERY (R8), which gives the erase extent for ERASE entries only: the others,
in which it is not used, hold 4 KiB, the model's choice (assumption log 44). -/
def builtInTable : List ClassEntry :=
  [builtInEntry 0x03 .read .three 0 .kib4, builtInEntry 0x0B .read .three 8 .kib4,
   builtInEntry 0x13 .read .four 0 .kib4, builtInEntry 0x02 .program .track 0 .kib4,
   builtInEntry 0x20 .erase .track 0 .kib4, builtInEntry 0xD8 .erase .track 0 .kib64,
   builtInEntry 0x60 .block .zero 0 .kib4, builtInEntry 0xC7 .block .zero 0 .kib4,
   builtInEntry 0xB7 .mode4 .zero 0 .kib4, builtInEntry 0xE9 .mode3 .zero 0 .kib4,
   builtInEntry 0x06 .pass .zero 0 .kib4, builtInEntry 0x04 .pass .zero 0 .kib4,
   builtInEntry 0x05 .pass .zero 0 .kib4, builtInEntry 0x9F .pass .zero 0 .kib4]

/-- The table in force: the loaded one in RUN, the built-in one in RECOVERY, none elsewhere (R5,
R7). -/
def State.tableInForce (s : State) : List ClassEntry :=
  match s.control.phase with
  | .run => s.classTable
  | .recovery => builtInTable
  | .hold | .halted => []

/-- The entry of a command byte in the table in force (R5). -/
def State.lookup (s : State) (b : Byte) : Option ClassEntry :=
  s.tableInForce.find? (fun e => e.command == b)

/-- The unlisted action in force: PASS outside RUN, whatever the manifest said (R6). -/
def State.unlistedAction (s : State) : UnlistedAction :=
  if s.control.phase = .run then s.settings.unlisted else .pass

/-- The resolved address length of an entry on a port: TRACK takes the tracked mode (R9). -/
def State.resolveLength (s : State) (p : Port) : AddressLength → Nat
  | .zero => 0
  | .three => 3
  | .four => 4
  | .track => match (s.port p).tracked with
    | .three => 3
    | .four => 4

/-! ## Affected segments and the judgment of writes (R15, R16) -/

/-- A run of global segments: the first and how many. -/
structure SegmentRun where
  first : Nat
  count : Nat
deriving DecidableEq, Repr

/-- A run holds a segment. -/
def SegmentRun.holds (r : SegmentRun) (g : Nat) : Bool := decide (r.first ≤ g) && decide (g < r.first + r.count)

/-- The run's segments, ascending. -/
def SegmentRun.list (r : SegmentRun) : List Nat := (List.range r.count).map (r.first + ·)

/-- The number of bytes of an erase extent, none for WHOLE. -/
def EraseExtent.bytes : EraseExtent → Option Nat
  | .kib4 => some 4096
  | .kib32 => some 32768
  | .kib64 => some 65536
  | .whole => none

/-- Every segment of a port (R15). -/
def State.wholePort (s : State) (p : Port) : SegmentRun := ⟨portNumber p * 1024, s.portSize p / segmentBytes⟩

/-- The affected segments of a PROGRAM or ERASE with this entry and start address (none when the
entry has address length 0) (R15). -/
def State.affected (s : State) (p : Port) (e : ClassEntry) (start : Option Nat) : SegmentRun :=
  match start with
  | none => s.wholePort p
  | some a =>
    if e.cls = .erase then
      match e.extent.bytes with
      | none => s.wholePort p
      | some size =>
        let first := (a - a % size) / segmentBytes
        let last := (a - a % size + size - 1) / segmentBytes
        ⟨portNumber p * 1024 + first, last - first + 1⟩
    else ⟨portNumber p * 1024 + a / segmentBytes, 1⟩

/-- The active anchor area (R65). -/
def State.activeAnchor (s : State) : Option Anchor := s.control.context.map (·.anchor)

/-- A segment lies in the active anchor area. -/
def State.inActiveAnchor (s : State) (g : Nat) : Bool :=
  match s.activeAnchor with
  | some a => s.fuses.inAnchor a g
  | none => false

/-- A segment lies in a region whose writes are refused (R16). -/
def State.inDeniedRegion (s : State) (g : Nat) : Bool :=
  match s.regionOf g with
  | some r => decide (r.write = .deny) || decide (r.write = .denyTrip)
  | none => false

/-- A segment blocks a write judged for a transaction decoded under this phase (R16). -/
def State.blocksWrite (s : State) (phase : Phase) (g : Nat) : Bool :=
  s.fuses.inRecoveryWindow g ||
    (decide (phase = .run) && (s.inDeniedRegion g || s.inActiveAnchor g))

/-- The lowest blocking segment of a run, if any (R16, R17). -/
def State.lowestBlocking (s : State) (phase : Phase) (run : SegmentRun) : Option Nat :=
  run.list.find? (s.blocksWrite phase)

/-! ## Delivery of read data (R90) -/

/-- A byte of this global segment is blanked: it lies in a BLANK region and its segment is FAILED
(R90). -/
def State.blanked (s : State) (g : Nat) : Bool :=
  match s.regionOf g with
  | some r => decide (r.read = .blank) && decide (s.segState g = some .failed)
  | none => false

/-- What the part drives on the upstream data lanes in the open transaction (R2, R3, R13, R14, R19,
R172, R173). -/
inductive Drive where
  /-- Lanes not driven. -/
  | released
  /-- The command byte is not whole: UIO1 high where it is to be the escape byte (byte 0 of R172 and
  R173), no lane driven where the transaction ends before its eighth bit (R2; assumption log 36). -/
  | commandByte
  /-- Flash data relayed (R18). -/
  | relay
  /-- Every lane high where the controller does not drive it (R13, R17, R19). -/
  | high
  /-- UIO1 high: a request transaction, or an escape transaction before its frame (R172). -/
  | uio1High
  /-- A FETCH frame on UIO1 from byte 2 of the transaction on, then FFh (R173). -/
  | frame (bytes : List Byte)
deriving DecidableEq, Repr

/-- The byte on UIO1 during a byte of an escape transaction, the escape byte being byte 0 (10.2): FFh
in byte 0, before the command byte is whole, and in every byte of a request (R172); of a FETCH, FFh in
bytes 0 and 1, the frame from byte 2 on, and FFh after its last byte (R173). None where the drive is
that of no escape transaction. -/
def Drive.escapeByte (position : Nat) : Drive → Option Byte
  | .commandByte => if position = 0 then some 0xFF else none
  | .uio1High => some 0xFF
  | .frame bytes => some (if position < 2 then 0xFF else bytes.getD (position - 2) 0xFF)
  | .released | .relay | .high => none

/-- The drive of the upstream lanes in a state. -/
def State.drive (s : State) : Drive :=
  match s.transaction with
  | none => .released
  | some t =>
    if t.command.isNone then .commandByte
    else match t.disposition with
      | .pending => .released
      | .forward => .relay
      | .block | .drop => .high
      | .request => match t.channel with
        | .frame bytes => .frame bytes
        | .awaiting | .parameters _ _ | .done => .uio1High

/-- What a forwarded transaction runs on its port's downstream lanes: the whole bytes so far in order,
the command byte, on one lane (R2), first; the lanes of its address bytes, where it has an entry; its data
lanes and dummy clocks (R18, R9). -/
structure Relay where
  port : Port
  bytes : List Byte
  addressLanes : Option Lanes
  dataLanes : Lanes
  dummy : Nat
deriving DecidableEq, Repr

/-- What runs downstream for the open transaction: nothing unless it is forwarded (R13, R14, R18, R19); an
unlisted command runs as a PASS entry with no address, one data lane and no dummy clocks (R6). -/
def State.relay (s : State) : Option Relay :=
  match s.transaction with
  | none => none
  | some t =>
    if t.disposition = .forward then
      some { port := t.port, bytes := t.relayed.reverse, addressLanes := t.entry.map (·.addressLanes)
             dataLanes := (t.entry.map (·.dataLanes)).getD .one
             dummy := (t.entry.map (·.dummy)).getD 0 }
    else none

/-! ## The request channel (R174, R175) -/

/-- A request code is accepted in this phase and power state (R175). -/
def accepts (phase : Phase) (power : PowerState) (code : Byte) : Bool :=
  match phase, power with
  | .run, .active => (parameterLength code).isSome
  | .recovery, .active =>
    [codeStatus, codeVerdicts, codeFaultRead, codeFaultAck, codeRearm, codeForceOff, codeTime,
      codeDoze].contains code
  | .run, .enteringDoze | .recovery, .enteringDoze => [codeStatus, codeTime, codeDoze].contains code
  | .run, .waking | .recovery, .waking => [codeStatus, codeTime].contains code
  | .run, .doze | .recovery, .doze => false
  | .hold, _ | .halted, _ => false

/-- The power state that the request channel judges by: a transaction opened in WAKING keeps its WAKING
rules after the power state has returned to ACTIVE (R3, R187); any other is judged by the power state
as it stands (R175; assumption log 13). -/
def State.requestPower (s : State) : PowerState :=
  match s.transaction with
  | some t => if t.waking then .waking else s.power.state
  | none => s.power.state

/-- The judgment of a request at its length byte (R174). -/
inductive Judgment where
  | discard
  | refuse (st : Status)
  | accept
deriving DecidableEq, Repr

/-- R174's steps, in order. -/
def State.judgeRequest (s : State) (code : Byte) (length : Nat) : Judgment :=
  if s.buffer.state = .working then .discard
  else match parameterLength code with
    | none => .refuse .badRequest
    | some n =>
      if !accepts s.control.phase s.requestPower code then .refuse .notAllowed
      else if length ≠ n then .refuse .badLength
      else .accept

/-! ## Replies (R177, R178) -/

/-- The STATUS data, 34 bytes (R177, 12.2). Bits 5 to 7 of the flags, which 12.2 does not name, read 0
(assumption log 35). -/
def State.statusData (s : State) : List Byte :=
  leBytes 1 s.control.phase.code ++ leBytes 1 s.power.state.code ++
    leBytes 1 s.gates.print.state.code ++ leBytes 1 s.gates.scan.state.code ++
    leBytes 1 (flagBit 0 s.gates.print.latch + flagBit 1 s.gates.scan.latch +
      flagBit 2 s.control.bootConfirmed + flagBit 3 s.lock + flagBit 4 s.gates.tamper) ++
    leBytes 1 s.faults.length ++ leBytes 1 s.gates.deadline.code ++
    leBytes 1 s.pool.gaps.length ++ leBytes 1 s.pool.liveCount ++ leBytes 1 s.engine.job.code ++
    leBytes 1 (activeAnchorCode s.activeAnchor) ++ leBytes 1 0 ++
    leBytes 4 (match s.control.context with | some c => c.sequence | none => 0) ++
    leBytes 2 (s.stateCount .unseen) ++ leBytes 2 (s.stateCount .hashing) ++
    leBytes 2 (s.stateCount .verified) ++ leBytes 2 (s.stateCount .failed) ++
    leBytes 2 (s.stateCount .dirty) ++
    (List.range 8).map (fun c => differenceByte (s.control.differences.getD c 0))

/-- The 8 bytes of a present region's verdict record (R178, 12.2). Bits 2 to 7 of the flags, which 12.2
does not name, read 0 (assumption log 35). -/
def State.verdictRecord (s : State) (i : Nat) (r : Region) : List Byte :=
  leBytes 1 i ++ leBytes 1 (s.regionSummary r).code ++
    leBytes 1 (flagBit 0 r.touched + flagBit 1 r.patrol) ++
    [differenceByte (s.control.differences.getD r.imageClass 0)] ++
    leBytes 2 (s.verifiedCount r) ++ leBytes 2 (s.firstFailed r)

/-- The 8 bytes of a STANDARD record for an index that is not present (R178). -/
def absentRecord (i : Nat) : List Byte :=
  leBytes 1 i ++ leBytes 1 Summary.absent.code ++ [0, 0, 0, 0, 0, 0]

/-- The present mask: the requested flags of indices the map holds (R178). -/
def State.presentMask (s : State) (mask : BitVec 16) : BitVec 16 :=
  mask &&& BitVec.ofNat 16 (2 ^ s.regions.length - 1)

/-- The region of an index of the present mask. -/
def State.presentRegion (s : State) (mask : BitVec 16) (i : Nat) : Option Region :=
  if mask.getLsbD i then s.regions[i]? else none

/-- The records of a verdict report: one per index in STANDARD, one per present index in COMPACT
(R178). -/
def State.verdictRecords (s : State) (mask : BitVec 16) (compact : Bool) : List (List Byte) :=
  (List.range 16).filterMap (fun i =>
    match s.presentRegion mask i with
    | some r => some (s.verdictRecord i r)
    | none => if compact then none else some (absentRecord i))

/-- The verdict report: format, present mask, record count, records (R178, 12.2). -/
def State.verdictData (s : State) (mask : BitVec 16) (compact : Bool) : List Byte :=
  let records := s.verdictRecords mask compact
  leBytes 1 (if compact then 1 else 0) ++ leBytes 2 (s.presentMask mask).toNat ++
    leBytes 1 records.length ++ records.flatten

end Sys2Proof.Machine
end

