-- ==== Sys2Proof/WellFormed.lean ====
section
/-! DEFINITION. The check of a command's operands: which terms of Instr are events the part can meet
in some state. A command that fails the check is no event of the part, whatever the state. -/

namespace Sys2Proof

/-- The length of a manifest header (3.1). -/
def headerLength : Nat := 128

/-- The length of a manifest's signature (3.1). -/
def signatureLength : Nat := 64

/-- A command's operands can occur:
an anchor header has 128 bytes (R59);
a body read runs to the end of the signature, and a body that passed the format check has at least a
settings block after its header (R51, R62);
an address has three or four bytes (R9);
an unknown request's code is none of 00h..0Ch, 00h being FETCH (R172, R174);
a third wake read has at least its 128 header bytes and at most the longest body (R136);
a known request's code is one of 01h..0Ch (R174). -/
def Instr.wellFormed : Instr → Bool
  | .headerReadEnd bytes => bytes.length == headerLength
  | .bodyReadEnd bytes => decide (64 + signatureLength ≤ bytes.length) && decide (bytes.length ≤ 130944)
  | .addressComplete bytes => bytes.length == 3 || bytes.length == 4
  | .unknownRequest _ code => decide (0x0C < code.toNat)
  | .wakeCheck bytes => decide (headerLength ≤ bytes.length) && decide (bytes.length ≤ 131008)
  | .requestLengthByte code _ _ => decide (0 < code.toNat) && decide (code.toNat ≤ 0x0C)
  | .reset | .resetEnd | .identityReadEnd _ _ _ | .upstreamCsAssert _ | .commandByte _ => true
  | .readDataByte _ | .upstreamCsDeassert _ | .fetch | .status _ | .verdicts _ _ _ _ => true
  | .faultRead _ _ | .faultAck _ | .rearm _ _ | .forceOff _ _ => true
  | .settings _ _ _ _ _ _ _ _ _ | .lock _ | .fillMask _ _ _ | .time _ | .doze _ => true
  | .advance _ | .fuseBitVerify _ | .fetchDataByte _ | .portAvailable _ => true
  | .sequenceTimerExpiry | .patrolTimerExpiry | .deadlineExpiry | .tamperSample _ => true
  | .alertPulseEnd | .alertGapEnd | .wakeEdge | .settleTimerExpiry => true
  | .wakeIdentityReadEnd _ _ _ => true

end Sys2Proof
end

