-- ==== Sys2Proof/Machine/Ops.lean ====
section
/-! DEFINITION. The shared operations that change the state: time, ports, faults and the alert line,
gates, the patrol timer, traffic ends, and the entries to RECOVERY, HALTED, ENTERING_DOZE and DOZE. -/

namespace Sys2Proof.Machine

/-! ## Time (R184) -/

/-- The timebase value of a timed event that falls due at `due`: the due value, or the present value
where that has already passed it. All intervals are below 2^31 µs, so the difference taken modulo
2^32 tells which (R184; assumption log 2). -/
def reach (due now : Time) : Time := if (due - now).toNat < 2 ^ 31 then due else now

/-- The timebase value some microseconds after another (R184: modulo 2^32). -/
def after (start : Time) (us : Nat) : Time := start + BitVec.ofNat 32 us

/-- The timebase value at which the sequence timer expires (R140). -/
def SequenceTimer.dueAt (t : SequenceTimer) : Time := after t.start (1000 * t.interval)

/-- The timebase has passed a due value or stands at it (assumption log 2). -/
def reached (due now : Time) : Bool := decide ((now - due).toNat < 2 ^ 31)

/-- An expiry of the replaced timer may still come at this instant (R145; assumption log 37). -/
def SequenceTimer.awaitsReplaced (t : SequenceTimer) (now : Time) : Bool :=
  t.superseded && decide (t.start = now)

/-- An expiry is yet to come at this instant or before: the timer's own, or that of the timer it
replaced (R145; assumption log 37). -/
def SequenceTimer.expiryDue (t : SequenceTimer) (now : Time) : Bool :=
  reached t.dueAt now || t.awaitsReplaced now

/-- Time passes up to a timed event. -/
def State.reachTime (s : State) (due : Time) : State := { s with time := reach due s.time }

/-- One microsecond passes on an empty queue; the timebase is held at 0 while reset is held
(R184; assumption log 1). -/
def State.tick (s : State) : State := if s.lines.rst then s else { s with time := s.time + 1 }

/-! ## Ports (1.5) -/

/-- Replace what the state holds for a port. -/
def State.setPort (s : State) (p : Port) (q : PortState) : State :=
  match p with
  | .p0 => { s with port0 := q }
  | .p1 => { s with port1 := q }

/-- A port's chip select is deasserted and nobody owns it (R22, R23). -/
def PortState.idle (q : PortState) : PortState := { q with owner := .nobody, select := false }

/-- A port at the release of the controller: owner and availability from the upstream chip select
(R21, R67). -/
def PortState.released (q : PortState) : PortState :=
  { q with owner := if q.upstream then .passThrough else .nobody, available := !q.upstream,
           holdoff := none, select := false }

/-- A port at the return of the power state to ACTIVE: PASS_THROUGH where the upstream chip select is
still asserted (R186). -/
def PortState.resumed (q : PortState) : PortState :=
  if q.upstream then { q with owner := .passThrough } else q

/-- A fetch read starts on a port: FETCH owns it and its chip select is asserted (R21). -/
def PortState.taken (q : PortState) : PortState := { q with owner := .fetch, select := true }

/-- A wake read ends on a port: PASS_THROUGH where the upstream chip select is asserted, NONE
otherwise (R136). -/
def PortState.afterWakeRead (q : PortState) : PortState :=
  { q with owner := if q.upstream then .passThrough else .nobody, select := false }

/-! ## Faults and the alert line (chapter 9) -/

/-- A pulse begins (R168). -/
def Alert.beginPulse (a : Alert) (now : Time) : Alert := { a with asserted := true, timing := .pulse now }

/-- A push reaches the alert line: LEVEL asserts it (R167); PULSE counts it, up to 15, and begins a
pulse where the line is idle (R168). -/
def Alert.push (a : Alert) (mode : AlertMode) (now : Time) : Alert :=
  match mode with
  | .level => { a with asserted := true }
  | .pulse =>
    let counted := { a with pendingPulses := min 15 (a.pendingPulses + 1) }
    if a.timing = .idle then counted.beginPulse now else counted

/-- A change of the alert mode, with the fault depth that the stack has (R169). PULSE to LEVEL ends a
running deasserted time with the pulse: the rule names the pulse alone (assumption log 34). -/
def Alert.changeMode (a : Alert) (old new : AlertMode) (depth : Nat) (now : Time) : Alert :=
  match old, new with
  | .level, .pulse =>
    if 0 < depth then { asserted := false, pendingPulses := 1, timing := .gap now }
    else { a with asserted := false }
  | .pulse, .level => { asserted := decide (0 < depth), pendingPulses := 0, timing := .idle }
  | .level, .level | .pulse, .pulse => a

/-- The stack after a push: the newest record at depth 0, at most three (R162). -/
def pushRecord (stack : List FaultRecord) (r : FaultRecord) : List FaultRecord := (r :: stack).take 3

/-- A block pushes a fault record with the present timebase value and phase (R160). No record is
pushed in HALTED (R74). -/
def State.pushFault (s : State) (kind : FaultKind) (region segment address : Option Nat)
    (detail : Byte) : State :=
  if s.control.phase = .halted then s else
  { s with
    faults := pushRecord s.faults
      { kind := kind, timestamp := s.time, phase := s.control.phase, region := region,
        segment := segment, address := address, detail := detail }
    alert := s.alert.push s.settings.alertMode s.time }

/-- The settings in force are replaced, and the alert line follows a change of its mode (R169). -/
def State.putSettings (s : State) (t : Settings) : State :=
  { s with settings := t,
           alert := s.alert.changeMode s.settings.alertMode t.alertMode s.faults.length s.time }

/-! ## The patrol timer (R130) -/

/-- The patrol timer is started: it latches the interval in force and clears the due flag; a latched
interval of 0 expires in the same event (R130). -/
def State.startPatrolTimer (s : State) : State :=
  { s with engine := { s.engine with
      timer := { start := if s.settings.patrol = 0 then none else some s.time,
                 interval := s.settings.patrol }
      due := decide (s.settings.patrol = 0) } }

/-! ## Gates (chapter 8) -/

/-- The print gate takes a state, with its timer, and its lines follow (R143). -/
def State.setPrint (s : State) (st : GateState) (timer : Option SequenceTimer) : State :=
  { s with
    gates := { s.gates with print := { s.gates.print with state := st }, timer := timer }
    lines := { s.lines with epwr := st.powers, earm := st.arms } }

/-- The scan gate takes a state, and its line follows (R143). -/
def State.setScan (s : State) (st : GateState) : State :=
  { s with
    gates := { s.gates with scan := { s.gates.scan with state := st } }
    lines := { s.lines with scnen := st.arms } }

/-- The deadline is disarmed, from ARMED or EXPIRED (R157). -/
def State.disarm (s : State) : State := { s with gates := { s.gates with deadline := .disarmed } }

/-- The first entry of the print gate to ON after reset: boot-confirmed is set, the deadline disarmed
and the patrol timer started (R144). -/
def State.confirmBoot (s : State) : State :=
  if s.control.bootConfirmed then s else
  (({ s with control := { s.control with bootConfirmed := true } } : State).disarm).startPatrolTimer

/-- The print gate enters ON (R140, R144). -/
def State.printOn (s : State) : State := (s.setPrint .on none).confirmBoot

/-- The sequence timer as an event starts or restarts it: it latches the interval in force, and
remembers whether an expiry of the timer it replaces is yet to come (R140, R141, R145; assumption
log 37). -/
def State.sequenceStart (s : State) : SequenceTimer :=
  { start := s.time, interval := s.settings.interval
    superseded := match s.gates.timer with
      | none => false
      | some old => old.expiryDue s.time }

/-- The print gate enters RISING; a sequence interval of 0 takes it to ON in the same event (R140,
R142). -/
def State.printRising (s : State) : State :=
  if s.settings.interval = 0 then s.printOn
  else s.setPrint .rising (some s.sequenceStart)

/-- The print gate enters FALLING; a sequence interval of 0 takes it to OFF in the same event (R140,
R142). -/
def State.printFalling (s : State) : State :=
  if s.settings.interval = 0 then s.setPrint .off none
  else s.setPrint .falling (some s.sequenceStart)

/-- The print gate moves by R140's table on its condition and latch as they now stand. -/
def State.settlePrint (s : State) : State :=
  match s.gates.print.state, s.gateGood s.gates.print with
  | .off, true | .falling, true => s.printRising
  | .rising, false | .on, false => s.printFalling
  | .off, false | .falling, false | .rising, true | .on, true => s

/-- The scan gate moves by R140's table; its interval is 0, so it comes to rest in ON or OFF (R142). -/
def State.settleScan (s : State) : State :=
  if s.gateGood s.gates.scan then s.setScan .on else s.setScan .off

/-- Both gates act on their conditions and latches as the event leaves them (R138, R140). -/
def State.settleGates (s : State) : State := s.settlePrint.settleScan

/-- Both gates are taken to OFF at once, the sequence timer stopped and the lines deasserted
together (R159, R73). -/
def State.gatesOff (s : State) : State := (s.setPrint .off none).setScan .off

/-- A trip sets latches (R146); the gates move when the event settles. -/
def State.latchGates (s : State) (print scan : Bool) : State :=
  { s with gates := { s.gates with
      print := { s.gates.print with latch := s.gates.print.latch || print }
      scan := { s.gates.scan with latch := s.gates.scan.latch || scan } } }

/-- A selectable trigger trips the gates whose trigger sets hold it (R148). -/
def State.raise (s : State) (t : Trigger) : State :=
  s.latchGates (holdsTrigger s.settings.printSet t) (holdsTrigger s.settings.scanSet t)

/-- A fixed trigger of a region trips every gate whose mask holds the region (R147). -/
def State.tripRegion (s : State) (i : Nat) : State :=
  s.latchGates (s.gates.print.mask.getLsbD i) (s.gates.scan.mask.getLsbD i)

/-! ## The fetch read in progress -/

/-- The fetch read in progress ends, its port idle and no current read; the job stays (R135). -/
def State.closeRead (s : State) : State :=
  match s.engine.read with
  | none => s
  | some r =>
    { s.setPort r.port (s.port r.port).idle with engine := { s.engine with read := none } }

/-- The fetch read in progress is ended and the job becomes IDLE (R128, R129). -/
def State.endRead (s : State) : State :=
  { s.closeRead with engine := { s.closeRead.engine with job := .idle } }

/-- A well-formed command brings about its next state; an ill-formed one is no event of the part. -/
def whenWellFormed (i : Instr) (t : State) : Host.Outcome State Fault Refusal :=
  if i.wellFormed then .next t else .fault .illFormed

/-- The part takes upstream traffic: phase RUN or RECOVERY (R3, R21, R67). -/
def State.listening (s : State) : Bool :=
  decide (s.control.phase = .run) || decide (s.control.phase = .recovery)

/-! ## The segment table and the pool -/

/-- A segment takes a state (R83). -/
def State.setSegState (s : State) (g : Nat) (st : SegState) : State :=
  { s with segments := s.segments.map (fun e => if e.seg = g then { e with state := st } else e) }

/-- A context slot takes a value. -/
def State.setSlot (s : State) (i : Nat) (c : Option Context) : State :=
  { s with pool := { s.pool with slots := s.pool.slots.set i c } }

/-- A segment leaves the gap queue, the others keeping their order (R83, R114). -/
def State.purgeGap (s : State) (g : Nat) : State :=
  { s with pool := { s.pool with gaps := s.pool.gaps.filter (fun x => x != g) } }

/-- A segment is appended to the gap queue, unless it is there already or the queue holds 32
(R113). -/
def State.appendGap (s : State) (g : Nat) : State :=
  if s.pool.gaps.contains g || decide (32 ≤ s.pool.gaps.length) then s
  else { s with pool := { s.pool with gaps := s.pool.gaps ++ [g] } }

/-! ## The ADVANCE operation -/

/-- A rollback row with its lowest-numbered unblown bit blown (R36). -/
def blowRow (row : BitVec 63) : BitVec 63 :=
  match (List.range 63).find? (fun i => !row.getLsbD i) with
  | some i => row ||| BitVec.twoPow 63 i
  | none => row

/-- The fuses with a target's bit blown (R36). -/
def Fuses.blow (f : Fuses) : FuseTarget → Fuses
  | .row c => { f with rows := f.rows.set c (blowRow (f.rows.getD c 0)) }
  | .flag slot => { f with revoked := f.revoked ||| BitVec.twoPow 4 slot }

/-- The ADVANCE operation under way is cut: the bit under its program step reads blown or unblown
afterward, as a free value says (R39; assumption log 3). -/
def State.cutAdvance (s : State) : State :=
  match s.advance with
  | [] => s
  | target :: _ =>
    { s with
      fuses := if Config.cutBitBlown s.drawn then s.fuses.blow target else s.fuses
      advance := []
      drawn := s.drawn + 1 }

/-! ## Entry to HALTED (R73) -/

/-- Entry to HALTED: CRST_N and ALRT_N asserted, both gates OFF, all traffic ended, the engine IDLE,
the deadline disarmed; contexts, queue, table and map keep their contents, the transaction record is
dropped (R73, R74, R101, R170, R39). -/
def State.enterHalted (s : State) : State :=
  let t := s.cutAdvance.gatesOff.disarm
  { t with
    control := { t.control with phase := .halted, step := .done }
    lines := { t.lines with crst := true }
    alert := { asserted := true, pendingPulses := 0, timing := .idle }
    port0 := t.port0.idle, port1 := t.port1.idle
    transaction := none
    engine := { t.engine with job := .idle, read := none }
    pool := { t.pool with record := none } }

/-! ## Entry to RECOVERY (R66) -/

/-- Entry to RECOVERY, from HOLD or from a wake mismatch. From HOLD the controller is released in the
same event (R66, R67, R159, R120). -/
def State.enterRecovery (s : State) : State :=
  let t := (s.gatesOff.disarm).putSettings Settings.afterReset
  let u : State := { t with
    control := { t.control with
      phase := .recovery, step := .done, pending0 := none, pending1 := none, candidates := [],
      context := none, differences := zeroDifferences, manifest := none }
    classTable := [], regions := [], segments := []
    pool := Pool.afterReset
    engine := { t.engine with job := .idle, read := none,
                              timer := { t.engine.timer with start := none }, due := false,
                              wake0 := none, wake1 := none }
    gates := { t.gates with print := { t.gates.print with mask := 0 },
                            scan := { t.gates.scan with mask := 0 } }
    lines := { t.lines with crst := false } }
  if s.control.phase = .hold then { u with port0 := u.port0.released, port1 := u.port1.released }
  else u

/-! ## Doze (R185, R186) -/

/-- Doze completion: with the gate unit reporting both gates OFF in ENTERING_DOZE, the power state
becomes DOZE, FPWR is deasserted, the tracked modes return to 3-byte, the ports go idle and an open
transaction is abandoned (R186, R10). -/
def State.completeDoze (s : State) : State :=
  if s.power.state = .enteringDoze ∧ s.gates.print.state = .off ∧ s.gates.scan.state = .off then
    { s with
      power := { s.power with state := .doze, fpwr := false }
      port0 := { s.port0.idle with tracked := .three }
      port1 := { s.port1.idle with tracked := .three }
      transaction := none }
  else s

/-- The segment states after every context is discarded: a segment of a VERIFY context returns to
UNSEEN, all others keep theirs (R85). -/
def discardedSegments (segments : List SegEntry) (pool : Pool) : List SegEntry :=
  segments.map (fun e =>
    if e.state = .hashing ∧ (pool.verifyContexts (fun c => c.seg == e.seg)).isEmpty = false then
      { e with state := .unseen }
    else e)

/-- The patrol cursor after every context is discarded: set back to the segment of a live PATROL
context (R134). -/
def cursorAfterDiscard (pool : Pool) (cursor : Nat) : Nat :=
  match pool.patrolSlot.bind pool.context with
  | some c => c.seg
  | none => cursor

/-- Entry to ENTERING_DOZE: the fetch read is aborted, every context discarded, the gap queue
cleared and the transaction record dropped, the deadline disarmed, and the gates fall (R185, R117,
R129, R134, R158). Doze entry completes in the same event where both gates are OFF (R186). -/
def State.enterDoze (s : State) : State :=
  let t := s.endRead.disarm
  let u : State := { t with
    power := { t.power with state := .enteringDoze }
    segments := discardedSegments t.segments t.pool
    engine := { t.engine with cursor := cursorAfterDiscard t.pool t.engine.cursor }
    pool := Pool.afterReset }
  u.settleGates.completeDoze

/-- WAKING starts: FPWR is asserted and the settle timer runs (R187). -/
def State.startWaking (s : State) : State :=
  { s with power := { state := .waking, fpwr := true, settle := some s.time } }

/-- The power state returns to ACTIVE at the end of a wake (R186, R188, R189, R190). -/
def State.becomeActive (s : State) : State :=
  { s with
    power := { s.power with state := .active, settle := none }
    port0 := s.port0.resumed, port1 := s.port1.resumed }

end Sys2Proof.Machine
end

