-- ==== Sys2Proof/Machine/Pool.lean ====
section
/-! DEFINITION. The context pool: the byte rule, allocation and eviction, finalisation and verdicts,
the gap mark and its judgment, and the marking by forwarded writes (chapters 5.5 and 6). -/

namespace Sys2Proof.Machine

/-- The two streams of bytes into the pool (R97), as the detail byte codes them (12.3). -/
inductive Stream where
  | passThrough
  | fetch
deriving DecidableEq, Repr

/-- Stream codes (12.3). -/
def Stream.code : Stream → Byte
  | .passThrough => 0
  | .fetch => 1

/-! ## Finalisation (R108) -/

/-- The verdict of a compare (R84). -/
def verdict (equal : Bool) : SegState := if equal then .verified else .failed

/-- The record kind of an unequal compare (R109, R110). -/
def Role.mismatch : Role → FaultKind
  | .verify => .segMismatch
  | .patrol => .patrolMismatch

/-- The verdict is written, the context freed, the segment purged from the gap queue; an unequal
compare pushes its record and trips every gate whose mask holds the region (R108 steps 2 to 5). -/
def State.writeVerdict (s : State) (i : Nat) (c : Context) (e : SegEntry) (stream : Stream) : State :=
  let equal := decide (c.digest.final = e.digest)
  let t := ((s.setSegState c.seg (verdict equal)).setSlot i none).purgeGap c.seg
  if equal then t
  else (t.pushFault c.role.mismatch (some e.region) (some c.seg) (some (c.seg * segmentBytes))
    stream.code).tripRegion e.region

/-- A context whose last byte has arrived is finalised: the entry's parity is checked first, and a
disagreement takes the part to HALTED with nothing written (R81, R82, R108). `c` is the context with
the byte taken in. -/
def State.finalise (s : State) (i : Nat) (c : Context) (stream : Stream) : State :=
  match s.entry c.seg with
  | none => s
  | some e =>
    if Config.segParity e.digest e.region = e.parity then s.writeVerdict i c e stream
    else s.enterHalted

/-- A byte extends a context: it enters the running digest, raises the fill by 1 and sets the
last-advance time; the byte at offset 32767 finalises it (R100). -/
def State.extend (s : State) (i : Nat) (b : Byte) (stream : Stream) : State :=
  match s.pool.context i with
  | none => s
  | some c =>
    let d := { c with fill := c.fill + 1, lastAdvance := s.time, digest := c.digest.push b }
    if d.fill = segmentBytes then s.finalise i d stream else s.setSlot i (some d)

/-! ## Allocation and eviction (R102 to R105) -/

/-- A fresh context on a segment (R102, R106). -/
def freshContext (g : Nat) (role : Role) (source : Source) (now : Time) : Context :=
  { seg := g, role := role, fill := 0, lastAdvance := now, source := source, digest := Sha.fresh }

/-- The context to evict: the PATROL context, else the VERIFY context of greatest age, the
lowest-numbered among equals (R103). -/
def State.victim (s : State) : Option Nat :=
  match s.pool.patrolSlot with
  | some i => some i
  | none => (oldest s.time (s.pool.verifyContexts (fun _ => true))).map (·.1)

/-- A context is evicted. A fetch read feeding it is ended. A VERIFY segment returns to UNSEEN and
is appended to the gap queue; a PATROL segment stays VERIFIED and the patrol cursor is set back to
it (R104, R105, R134). -/
def State.evict (s : State) (i : Nat) : State :=
  match s.pool.context i with
  | none => s
  | some c =>
    let t := if c.source = .fetch then s.endRead else s
    let u := t.setSlot i none
    match c.role with
    | .verify => (u.setSegState c.seg .unseen).appendGap c.seg
    | .patrol => { u with engine := { u.engine with cursor := c.seg } }

/-- The slot a pass-through allocation takes: the lowest-numbered free one, or the evicted one
(R102). -/
def State.allocationSlot (s : State) : Option Nat :=
  match s.pool.freeSlot with
  | some i => some i
  | none => s.victim

/-- A pass-through allocation: a VERIFY context on the segment, which becomes HASHING, and the byte
extends it (R102). -/
def State.allocate (s : State) (g : Nat) (b : Byte) : State :=
  match s.allocationSlot with
  | none => s
  | some i =>
    let t := if (s.pool.freeSlot).isSome then s else s.evict i
    let u := (t.setSlot i (some (freshContext g .verify .nothing t.time))).setSegState g .hashing
    u.extend i b .passThrough

/-! ## The byte rule (R99, R101) -/

/-- The touched flag of the region of a reported byte is set (R77). -/
def State.touch (s : State) (g : Nat) : State :=
  match s.regionIndex g with
  | none => s
  | some i => { s with regions := s.regions.modify i (fun r => { r with touched := true }) }

/-- The reach of a segment's proof: the fill of the context that holds it, 0 where none does (R101). -/
def State.proofReach (s : State) (g : Nat) : Nat :=
  match (s.pool.holder g).bind s.pool.context with
  | some c => c.fill
  | none => 0

/-- The gap mark of an opening byte: its segment is UNSEEN or HASHING and its offset lies beyond the
proof's reach (R101). -/
def State.gapMark (s : State) (g offset : Nat) : Bool :=
  (decide (s.segState g = some .unseen) || decide (s.segState g = some .hashing)) &&
    decide (s.proofReach g < offset)

/-- The first reported byte of a transaction fills the transaction record (R101). -/
def State.openRecord (s : State) (g offset : Nat) : State :=
  match s.pool.record with
  | some _ => s
  | none => { s with pool := { s.pool with record := some ⟨g, s.gapMark g offset⟩ } }

/-- The byte rule: what a pass-through byte does to the proofs (R99). -/
def State.byteRule (s : State) (g offset : Nat) (b : Byte) : State :=
  match s.segState g with
  | some .unseen => if offset = 0 then s.allocate g b else s
  | some .hashing =>
    match s.pool.holder g with
    | none => s
    | some i =>
      match s.pool.context i with
      | none => s
      | some c => if c.fill = offset then s.extend i b .passThrough else s
  | some .verified | some .failed | some .dirty | none => s

/-- A reported byte of a forwarded READ reaches the region map and the pool (R20, R76, R77, R99). -/
def State.reportByte (s : State) (flat : Nat) (b : Byte) : State :=
  let g := flat / segmentBytes
  let offset := flat % segmentBytes
  ((s.touch g).openRecord g offset).byteRule g offset b

/-- The end report of a forwarded READ: a marked opening segment that is still UNSEEN or HASHING is
appended to the gap queue, and the record is emptied (R111). -/
def State.judgeGap (s : State) : State :=
  let t : State := { s with pool := { s.pool with record := none } }
  match s.pool.record with
  | none => s
  | some r =>
    if r.mark = true ∧ (s.segState r.seg = some .unseen ∨ s.segState r.seg = some .hashing) then
      t.appendGap r.seg
    else t

/-! ## Marking by forwarded writes (R87, R88) -/

/-- A forwarded write to this run makes the entry DIRTY: it lies in an ALLOW_MARK region and is
UNSEEN, HASHING or VERIFIED (R87). -/
def State.marks (s : State) (run : SegmentRun) (e : SegEntry) : Bool :=
  run.holds e.seg &&
    (match s.regionOf e.seg with | some r => decide (r.write = .allowMark) | none => false) &&
    (decide (e.state = .unseen) || decide (e.state = .hashing) || decide (e.state = .verified))

/-- The segments that a forwarded write makes DIRTY. -/
def State.markedSegments (s : State) (run : SegmentRun) : List Nat :=
  (s.segments.filter (s.marks run)).map (·.seg)

/-- A context is discarded when its segment is newly DIRTY (R88, R116). -/
def discardIn (marked : List Nat) : Option Context → Option Context
  | some c => if marked.contains c.seg then none else some c
  | none => none

/-- The report of a forwarded write: its ALLOW_MARK segments become DIRTY, their contexts are
discarded and they leave the gap queue, all in one event (R87, R88, R114). -/
def State.reportWrite (s : State) (run : SegmentRun) : State :=
  let marked := s.markedSegments run
  { s with
    segments := s.segments.map (fun e => if s.marks run e then { e with state := .dirty } else e)
    pool := { s.pool with
      slots := s.pool.slots.map (discardIn marked)
      gaps := s.pool.gaps.filter (fun g => !marked.contains g) } }

end Sys2Proof.Machine
end

