-- ==== Sys2Proof/Machine/Fetch.lean ====
section
/-! DEFINITION. The fetch engine's choices and reads: the candidates in their order, the start of a
read, and the judgment that an event brings about (chapter 7). -/

namespace Sys2Proof.Machine

/-! ## Starting a read (R34, R127, R132, R135) -/

/-- The read command that every FILL, PATROL, MANIFEST and WAKE data read uses: the fused one where it
is provisioned, else 13h with four address bytes on single lanes and no dummy clocks (R34). -/
def Fuses.readCommand (f : Fuses) : EngineCommand :=
  if f.engineCommand.provisioned then f.engineCommand else ⟨false, 0x13, .four, .one, .one, 0⟩

/-- The address bytes of the engine read command, most significant first: the full address within the
port, or with three bytes the address modulo 16 MiB (R34). -/
def AddrMode.sentBytes (m : AddrMode) (address : Nat) : List Byte :=
  match m with
  | .three => beBytes 3 (address % 2 ^ 24)
  | .four => beBytes 4 address

/-- The record of a data read with the engine read command, its command byte on one lane (R34). -/
def Fuses.dataRead (f : Fuses) (p : Port) (kind : ReadKind) (start count : Nat) : FetchRead :=
  let k := f.readCommand
  { port := p, kind := kind, start := start, command := k.command,
    commandLanes := .one, sent := k.address.sentBytes start, addressLanes := k.addressLanes, dataLanes := k.dataLanes, dummy := k.dummy.toNat, count := count }

/-- The record of an identity read: 9Fh, no address, one data lane, three bytes (R34, R58). The start
address, the address lanes and the dummy clocks of a read that has no address are given nowhere: 0, one
lane and 0 are the model's choice (assumption log 42). -/
def identityRead (p : Port) (kind : ReadKind) : FetchRead :=
  { port := p, kind := kind, start := 0, command := 0x9F, commandLanes := .one, sent := [],
    addressLanes := .one, dataLanes := .one, dummy := 0, count := 3 }

/-- A read starts: FETCH owns its port, the chip select is asserted, and the job and current read are
set (R21, R119). -/
def State.startRead (s : State) (job : Job) (r : FetchRead) : State :=
  { s.setPort r.port (s.port r.port).taken with
    engine := { s.engine with job := job, read := some r } }

/-- The data read of a context: from its fill offset to its segment's end (R127, R132). -/
def State.contextRead (s : State) (kind : ReadKind) (c : Context) : FetchRead :=
  s.fuses.dataRead (segmentPort c.seg) kind (segmentBase c.seg + c.fill) (segmentBytes - c.fill)

/-- A live context is resumed: its source becomes FETCH and its read starts at its fill (R127,
R132). -/
def State.resume (s : State) (i : Nat) : State :=
  match s.pool.context i with
  | none => s
  | some c =>
    let t := s.setSlot i (some { c with source := .fetch })
    match c.role with
    | .verify => (t.purgeGap c.seg).startRead .fill (t.contextRead (.fill i) c)
    | .patrol => t.startRead .patrol (t.contextRead (.patrol i) c)

/-- A fill read starts on an UNSEEN segment: a VERIFY context is granted, the segment becomes HASHING
and leaves the gap queue (R106, R127). -/
def State.startFill (s : State) (g : Nat) : State :=
  match s.pool.freeSlot with
  | none => s
  | some i =>
    let c := freshContext g .verify .fetch s.time
    let t := ((s.setSlot i (some c)).setSegState g .hashing).purgeGap g
    t.startRead .fill (t.contextRead (.fill i) c)

/-- A patrol segment start: a PATROL context is granted, the cursor moves past the segment and the
patrol timer is started (R106, R132). -/
def State.startPatrol (s : State) (g : Nat) : State :=
  match s.pool.freeSlot with
  | none => s
  | some i =>
    let c := freshContext g .patrol .fetch s.time
    let t := (s.setSlot i (some c)).startPatrolTimer
    let u : State := { t with engine := { t.engine with cursor := if g = 2047 then 0 else g + 1 } }
    u.startRead .patrol (u.contextRead (.patrol i) c)

/-- The PATROL context is freed because the patrol interval in force is 0; the cursor is set to its
segment (R132, R134). -/
def State.freePatrol (s : State) (i : Nat) : State :=
  match s.pool.context i with
  | none => s
  | some c =>
    let t := s.setSlot i none
    { t with engine := { t.engine with cursor := c.seg } }

/-! ## Candidates (R121 to R125, R131, R132) -/

/-- What a judgment finds. -/
inductive Candidacy where
  /-- A fill read that starts a proof of an UNSEEN segment. -/
  | fill (g : Nat)
  /-- A fill read that resumes a live VERIFY context. -/
  | resumeFill (slot : Nat)
  /-- A patrol read that resumes the live PATROL context. -/
  | resumePatrol (slot : Nat)
  /-- The PATROL context is to be freed: the interval in force is 0. -/
  | freePatrol (slot : Nat)
  /-- A patrol segment start. -/
  | startPatrol (g : Nat)
  | nothing
deriving DecidableEq, Repr

/-- What a gap queue entry yields now, if it is servable (R123). -/
def State.gapCandidate (s : State) (g : Nat) : Option Candidacy :=
  if s.portFree (segmentPort g) then
    match s.segState g with
    | some .hashing =>
      match s.pool.holder g with
      | some i => if (s.pool.context i).map (·.role) = some .verify then some (.resumeFill i) else none
      | none => none
    | some .unseen => if (s.pool.freeSlot).isSome then some (.fill g) else none
    | some .verified | some .failed | some .dirty | none => none
  else none

/-- The live VERIFY context of greatest age on a free port (R124). -/
def State.liveCandidate (s : State) : Option Candidacy :=
  (oldest s.time (s.pool.verifyContexts (fun c => s.portFree (segmentPort c.seg)))).map
    (fun e => .resumeFill e.1)

/-- The indices of the region map in the sweep's order: those in the fill request mask, then the
other touched ones, then the rest, each group ascending (R125). -/
def State.sweepOrder (s : State) : List (Nat × Region) :=
  let all := s.regions.zipIdx.map (fun e => (e.2, e.1))
  all.filter (fun e => s.engine.fillMask.getLsbD e.1) ++
    all.filter (fun e => !s.engine.fillMask.getLsbD e.1 && e.2.touched) ++
    all.filter (fun e => !s.engine.fillMask.getLsbD e.1 && !e.2.touched)

/-- The lowest-numbered UNSEEN segment of a region (R125). -/
def State.lowestUnseen (s : State) (r : Region) : Option Nat :=
  ((List.range r.count).map r.segmentAt).find? (fun g => decide (s.segState g = some .unseen))

/-- What the sweep yields: the lowest UNSEEN segment of the first region in order that lies on a free
port and has one, while a context is free (R125). -/
def State.sweepCandidate (s : State) : Option Candidacy :=
  if (s.pool.freeSlot).isSome then
    (s.sweepOrder.findSome? (fun e => if s.portFree e.2.port then s.lowestUnseen e.2 else none)).map .fill
  else none

/-- Step 4: the live PATROL context is resumed when its port is free, or freed when the patrol
interval in force is 0 (R132; assumption log 11). -/
def State.patrolResumption (s : State) : Option Candidacy :=
  match s.pool.patrolSlot with
  | none => none
  | some i =>
    if s.settings.patrol = 0 then some (.freePatrol i)
    else match s.pool.context i with
      | some c => if s.portFree (segmentPort c.seg) then some (.resumePatrol i) else none
      | none => none

/-- A segment is eligible for patrol: in use, VERIFIED, and in a region with its patrol flag set (R131). -/
def State.patrolEligible (s : State) (g : Nat) : Bool :=
  decide (s.segState g = some .verified) && (match s.regionOf g with | some r => r.patrol | none => false)

/-- The first eligible segment from the cursor upward, passing from 2047 to 0 (R131). -/
def State.patrolNext (s : State) : Option Nat :=
  let eligible := (s.segments.map (·.seg)).filter s.patrolEligible
  match smallest (eligible.filter (fun g => decide (s.engine.cursor ≤ g))) with
  | some g => some g
  | none => smallest eligible

/-- Step 5: a patrol segment start, when every condition holds and the first eligible segment's port
is free (R131). -/
def State.patrolStart (s : State) : Option Candidacy :=
  if s.settings.patrol ≠ 0 ∧ s.control.bootConfirmed = true ∧ s.engine.due = true ∧
      s.pool.patrolSlot = none ∧ (s.pool.freeSlot).isSome = true then
    match s.patrolNext with
    | some g => if s.portFree (segmentPort g) then some (.startPatrol g) else none
    | none => none
  else none

/-- The first candidate in the order of R121. -/
def State.candidate (s : State) : Candidacy :=
  match s.pool.gaps.findSome? s.gapCandidate with
  | some c => c
  | none =>
    match s.liveCandidate with
    | some c => c
    | none =>
      match s.sweepCandidate with
      | some c => c
      | none =>
        match s.patrolResumption with
        | some c => c
        | none =>
          match s.patrolStart with
          | some c => c
          | none => .nothing

/-- The engine judges candidates: phase RUN, power state ACTIVE, job IDLE (R121). -/
def State.engineFree (s : State) : Bool :=
  decide (s.control.phase = .run) && decide (s.power.state = .active) && decide (s.engine.job = .idle)

/-- A judgment starts the read of the first candidate. Freeing the PATROL context frees a context,
which is itself an event of R121, so the engine judges once more in the same event. -/
def State.judgeWith : Nat → State → State
  | 0, s => s
  | again + 1, s =>
    if s.engineFree then
      match s.candidate with
      | .fill g => s.startFill g
      | .resumeFill i => s.resume i
      | .resumePatrol i => s.resume i
      | .freePatrol i => State.judgeWith again (s.freePatrol i)
      | .startPatrol g => s.startPatrol g
      | .nothing => s
    else s

/-- The engine's judgment of its candidates at an event (R121). Only one PATROL context can be live,
so a second round never frees another. -/
def State.judge (s : State) : State := State.judgeWith 2 s

end Sys2Proof.Machine
end

