-- ==== Sys2Proof/Machine/Ecdsa.lean ====
section
/-! DEFINITION. The signature check of R50: ECDSA over the P-256 curve, "the published elliptic-curve
signature scheme" of the manual's abbreviations table (FIPS 186-4, D.1.2.3 for the curve). The manual
names the scheme and does not repeat it (assumption log 6). -/

namespace Sys2Proof.Machine

/-- The field prime, the group order, the curve constant b and the base point of P-256. -/
def P256.p : Nat := 0xffffffff00000001000000000000000000000000ffffffffffffffffffffffff
def P256.n : Nat := 0xffffffff00000000ffffffffffffffffbce6faada7179e84f3b9cac2fc632551
def P256.b : Nat := 0x5ac635d8aa3a93e7b3ebbd55769886bc651d06b0cc53b0f63bce3c3e27d2604b
def P256.gx : Nat := 0x6b17d1f2e12c4247f8bce6e563a440f277037d812deb33a0f4a13945d898c296
def P256.gy : Nat := 0x4fe342e2fe1a7f9b8ee7eb4a7c0f9e162bce33576b315ececbb6406837bf51f5

/-- The 256 bits of a number, most significant first. -/
def P256.bits (k : Nat) : List Bool := (List.range 256).map (fun i => k.testBit (255 - i))

/-- A power modulo m by squaring, over the bits of the exponent. -/
def P256.powMod (m a : Nat) (k : Nat) : Nat :=
  (P256.bits k).foldl (fun acc bit => if bit then acc * acc % m * a % m else acc * acc % m) (1 % m)

/-- The inverse modulo a prime m. -/
def P256.invMod (m a : Nat) : Nat := P256.powMod m a (m - 2)

/-- A point in Jacobian coordinates; z = 0 is the point at infinity. -/
structure JPoint where
  x : Nat
  y : Nat
  z : Nat
deriving DecidableEq, Repr

/-- Doubling on y² = x³ − 3x + b. -/
def JPoint.double (q : JPoint) : JPoint :=
  if q.z = 0 ∨ q.y = 0 then ⟨1, 1, 0⟩ else
  let p := P256.p
  let yy := q.y * q.y % p
  let s := 4 * q.x * yy % p
  let zz := q.z * q.z % p
  let m := 3 * ((q.x + p - zz) % p) * ((q.x + zz) % p) % p
  let x := (m * m + 2 * (p - s)) % p
  ⟨x, (m * ((s + p - x) % p) + (p - 8 * (yy * yy % p) % p)) % p, 2 * q.y * q.z % p⟩

/-- Addition of an affine point (x, y). -/
def JPoint.addAffine (q : JPoint) (x y : Nat) : JPoint :=
  if q.z = 0 then ⟨x, y, 1⟩ else
  let p := P256.p
  let zz := q.z * q.z % p
  let u := x * zz % p
  let v := y * (zz * q.z % p) % p
  let h := (u + p - q.x) % p
  let r := (v + p - q.y) % p
  if h = 0 then (if r = 0 then q.double else ⟨1, 1, 0⟩) else
  let hh := h * h % p
  let hhh := hh * h % p
  let w := q.x * hh % p
  let x3 := (r * r + (p - hhh) + 2 * (p - w)) % p
  ⟨x3, (r * ((w + p - x3) % p) + (p - q.y * hhh % p)) % p, q.z * h % p⟩

/-- u·G + v·Q, one doubling for each pair of bits. -/
def P256.mulAdd (u v qx qy : Nat) : JPoint :=
  ((P256.bits u).zip (P256.bits v)).foldl (fun acc bits =>
    let d := acc.double
    let g := if bits.1 then d.addAffine P256.gx P256.gy else d
    if bits.2 then g.addAffine qx qy else g) ⟨1, 1, 0⟩

/-- Whether (x, y) is a point of the curve. -/
def P256.onCurve (x y : Nat) : Bool :=
  decide (x < P256.p) && decide (y < P256.p) &&
    (y * y % P256.p == (x * x % P256.p * x + 3 * (P256.p - x) + P256.b) % P256.p)

/-- ECDSA verification of (r, s) against the digest e under the public key (qx, qy). -/
def P256.verify (qx qy e r s : Nat) : Bool :=
  decide (0 < r) && decide (r < P256.n) && decide (0 < s) && decide (s < P256.n) &&
    (let w := P256.invMod P256.n s
     let q := P256.mulAdd (e * w % P256.n) (r * w % P256.n) qx qy
     !(q.z == 0) &&
       (let zi := P256.invMod P256.p q.z
        q.x * (zi * zi % P256.p) % P256.p % P256.n == r))

/-- The number whose bytes, most significant first, are these. -/
def beNat (bytes : List Byte) : Nat := bytes.foldl (fun acc b => acc * 256 + b.toNat) 0

/-- The signature check of R50 under a slot's 64-byte public key. The key's bytes are read as the
two coordinates, each most significant byte first: the manual gives no layout for the fused key
(assumption log 7). -/
def signatureGood (key : List Byte) (digest : Digest) (r s : Nat) : Bool :=
  let qx := beNat (key.take 32)
  let qy := beNat (key.drop 32)
  if P256.onCurve qx qy then P256.verify qx qy digest.toNat r s
  else Config.offCurveSignature key digest r s

end Sys2Proof.Machine
end

