-- ==== Sys2Proof/Machine/Manifest.lean ====
section
/-! DEFINITION. A manifest as bytes and the checks it must pass: header fields, size arithmetic,
records, settings, digests, and the format, size, key slot, signature, rollback and structure checks
(chapter 3, 12.1). -/

namespace Sys2Proof.Machine

/-! ## Fields of the header (12.1) -/

/-- The byte at an offset. -/
def byteAt (bytes : List Byte) (i : Nat) : Byte := bytes.getD i 0

/-- A field of a width at an offset, least significant byte first (R192). -/
def field (bytes : List Byte) (offset width : Nat) : Nat := leNat ((bytes.drop offset).take width)

def headerMagic (h : List Byte) : Nat := field h 0 4
def headerFormat (h : List Byte) : Nat := field h 4 1
def headerSlot (h : List Byte) : Nat := field h 5 1
def headerRevoke (h : List Byte) : Byte := byteAt h 6
def headerSequence (h : List Byte) : Nat := field h 8 4
def headerVersions (h : List Byte) : List Nat := (List.range 8).map (fun c => field h (12 + c) 1)
def headerSize0 (h : List Byte) : Nat := field h 20 1
def headerSize1 (h : List Byte) : Nat := field h 21 1
def headerRegionCount (h : List Byte) : Nat := field h 22 1
def headerClassCount (h : List Byte) : Nat := field h 23 1
def headerDigestCount (h : List Byte) : Nat := field h 24 2
def headerPrintMask (h : List Byte) : BitVec 16 := flags16 (byteAt h 26) (byteAt h 27)
def headerScanMask (h : List Byte) : BitVec 16 := flags16 (byteAt h 28) (byteAt h 29)
def headerBodyLength (h : List Byte) : Nat := field h 32 4

/-- The magic of a manifest (3.2). -/
def manifestMagic : Nat := 0x56474D31

/-- The longest body that leaves room for its signature in an anchor area (R52). -/
def longestBody : Nat := 131008

/-- The body length that the counts of a header give (R51). -/
def headerFormulaLength (h : List Byte) : Nat :=
  128 + 32 * headerRegionCount h + 8 * headerClassCount h + 64 + 32 * headerDigestCount h

/-- The format check of R51, the magic apart. -/
def formatGood (h : List Byte) : Bool :=
  decide (headerFormat h = 1) && decide (headerSlot h ≤ 3) &&
    (headerVersions h).all (fun v => decide (v ≤ 63)) &&
    decide (headerBodyLength h = headerFormulaLength h)

/-- The header checks of R61 in order: format, size, key slot; the first failing one's reason. -/
def headerReject (f : Fuses) (h : List Byte) : Option RejectReason :=
  if !formatGood h then some .badFormat
  else if longestBody < headerBodyLength h then some .tooLarge
  else if !(f.slot (headerSlot h)).provisioned then some .keyAbsent
  else if f.revoked.getLsbD (headerSlot h) then some .keyRevoked
  else none

/-! ## The parts of the body (3.1, 12.1) -/

/-- The records of a width that start at an offset. -/
def recordsAt (bytes : List Byte) (offset width count : Nat) : List (List Byte) :=
  (List.range count).map (fun i => (bytes.drop (offset + width * i)).take width)

/-- A region record's fields (12.1). -/
def readRegion (b : List Byte) : RawRegion :=
  { port := field b 0 1, imageClass := field b 1 1, first := field b 2 2, count := field b 4 2,
    write := field b 6 1, read := field b 7 1, patrol := field b 8 1,
    reservedZero := (b.drop 9).all (fun x => x == 0) }

/-- A class entry's fields (12.1). -/
def readClass (b : List Byte) : RawClass :=
  { command := byteAt b 0, cls := field b 1 1, address := field b 2 1, addressLanes := field b 3 1,
    dataLanes := field b 4 1, dummy := field b 5 1, extent := field b 6 1 }

/-- The settings block's fields, clamped (R47, 12.1). -/
def readSettings (b : List Byte) : Settings :=
  { deadline := field b 0 2, interval := field b 6 1, holdoff := clampHoldoff (field b 2 2),
    patrol := clampPatrol (field b 4 2), alertMode := clampAlertMode (byteAt b 7),
    printSet := clampTriggers (byteAt b 8), scanSet := clampTriggers (byteAt b 9),
    unlisted := clampUnlisted (byteAt b 10) }

/-- A 32-byte digest, its first byte most significant in the model's word (R192). -/
def readDigest (b : List Byte) : Digest := BitVec.ofNat 256 (beNat b)

/-- The offset of the class entries, the settings block and the digest list (3.1). -/
def classOffset (h : List Byte) : Nat := 128 + 32 * headerRegionCount h
def settingsOffset (h : List Byte) : Nat := classOffset h + 8 * headerClassCount h
def digestOffset (h : List Byte) : Nat := settingsOffset h + 64

/-- The candidate copy built from the held header and the bytes of the body read (R62). -/
def readCopy (h rest : List Byte) : CandidateCopy :=
  let body := (h ++ rest).take (headerBodyLength h)
  { regions := (recordsAt body 128 32 (headerRegionCount h)).map readRegion,
    classes := (recordsAt body (classOffset h) 8 (headerClassCount h)).map readClass,
    settings := readSettings ((body.drop (settingsOffset h)).take 64),
    digests := (recordsAt body (digestOffset h) 32 (headerDigestCount h)).map readDigest,
    bodyDigest := sha256 body }

/-- The signature check on the 64 bytes that follow the body (R50): r, then s, each most significant
byte first (R192). -/
def candidateSigned (f : Fuses) (h rest : List Byte) (copy : CandidateCopy) : Bool :=
  let signature := (h ++ rest).drop (headerBodyLength h)
  signatureGood (f.slot (headerSlot h)).key copy.bodyDigest (beNat (signature.take 32))
    (beNat ((signature.drop 32).take 32))

/-- The lowest-numbered class with a negative difference (R30). -/
def rollbackClass (differences : List Int) : Option Nat := differences.findIdx? (fun d => decide (d < 0))

/-! ## The structure check (R53, R54) -/

/-- The segments that a port size code gives a port (R43). -/
def portCapacity (code : Nat) : Nat := if code = 0 then 0 else 2 ^ (code - 1) * 32

/-- The size code of a region record's port. -/
def sizeCodeOf (h : List Byte) (port : Nat) : Nat := if port = 0 then headerSize0 h else headerSize1 h

/-- A region record's fields hold accepted values (R44). -/
def RawRegion.accepted (r : RawRegion) : Bool :=
  decide (r.port ≤ 1) && decide (r.imageClass ≤ 7) && decide (r.first ≤ 1023) &&
    decide (1 ≤ r.count) && decide (r.count ≤ 1024) && decide (r.write ≤ 2) && decide (r.read ≤ 1) &&
    decide (r.patrol ≤ 1) && r.reservedZero

/-- A region record lies within its port (R53). -/
def RawRegion.fits (h : List Byte) (r : RawRegion) : Bool :=
  decide (1 ≤ sizeCodeOf h r.port) && decide (sizeCodeOf h r.port ≤ 6) &&
    decide (r.first + r.count ≤ portCapacity (sizeCodeOf h r.port))

/-- A region record on port 0 shares a segment with the run first .. first + count − 1. -/
def RawRegion.meets (r : RawRegion) (first count : Nat) : Bool :=
  decide (r.port = 0) && decide (r.first < first + count) && decide (first < r.first + r.count)

/-- Two region records share a segment (R53). -/
def RawRegion.overlaps (a b : RawRegion) : Bool :=
  decide (a.port = b.port) && decide (a.first < b.first + b.count) && decide (b.first < a.first + a.count)

/-- No record of a list overlaps a later one. -/
def noOverlap : List RawRegion → Bool
  | [] => true
  | r :: rest => rest.all (fun q => !r.overlaps q) && noOverlap rest

/-- The number of segments of the recovery window that port 0 has (R33). -/
def Fuses.windowCount (f : Fuses) : Nat :=
  min (f.recoveryBase.toNat + f.recoveryCount.toNat) 1024 - f.recoveryBase.toNat

/-- The region checks (R53). -/
def regionsGood (f : Fuses) (h : List Byte) (copy : CandidateCopy) : Bool :=
  let total := (copy.regions.map (·.count)).sum
  decide (1 ≤ headerRegionCount h) && decide (headerRegionCount h ≤ 16) &&
    (match copy.regions with | r :: _ => decide (r.port = 0) | [] => false) &&
    copy.regions.all RawRegion.accepted && copy.regions.all (RawRegion.fits h) &&
    noOverlap copy.regions &&
    copy.regions.all (fun r => !r.meets (4 * f.anchorBase .primary) 4) &&
    copy.regions.all (fun r => !r.meets (4 * f.anchorBase .fallback) 4) &&
    copy.regions.all (fun r => f.windowCount = 0 || !r.meets f.recoveryBase.toNat f.windowCount) &&
    decide (headerDigestCount h = total) && decide (total ≤ 2048)

/-- A lane count of a class entry is 1, 2 or 4 (R45). -/
def laneCountGood (n : Nat) : Bool := n == 1 || n == 2 || n == 4

/-- A class entry holds accepted values, and not the escape byte (R45, R54). -/
def RawClass.accepted (e : RawClass) : Bool :=
  decide (e.cls ≤ 6) && (e.address == 0 || e.address == 3 || e.address == 4 || e.address == 5) &&
    laneCountGood e.addressLanes && laneCountGood e.dataLanes && decide (e.dummy ≤ 15) &&
    (decide (e.cls ≠ 2) || decide (e.extent ≤ 3)) && decide (e.command ≠ escapeByte)

/-- No two class entries share a command byte (R54). -/
def distinctCommands : List RawClass → Bool
  | [] => true
  | e :: rest => rest.all (fun q => decide (q.command ≠ e.command)) && distinctCommands rest

/-- A mask names only regions below a count (R54). -/
def maskBelow (mask : BitVec 16) (count : Nat) : Bool :=
  (List.range 16).all (fun i => !mask.getLsbD i || decide (i < count))

/-- The remaining structure checks (R54). -/
def remainderGood (h : List Byte) (copy : CandidateCopy) : Bool :=
  decide (1 ≤ headerSize0 h) && decide (headerSize0 h ≤ 6) && decide (headerSize1 h ≤ 6) &&
    decide (headerClassCount h ≤ 32) && copy.classes.all RawClass.accepted &&
    distinctCommands copy.classes &&
    decide ((headerRevoke h).toNat < 16) && !(headerRevoke h).getLsbD (headerSlot h) &&
    maskBelow (headerPrintMask h) (headerRegionCount h) &&
    maskBelow (headerScanMask h) (headerRegionCount h) &&
    (headerPrintMask h).getLsbD 0 && (headerScanMask h).getLsbD 0 &&
    decide (headerScanMask h &&& ~~~headerPrintMask h = 0)

/-- The structure check (R53, R54). -/
def structureGood (f : Fuses) (h : List Byte) (copy : CandidateCopy) : Bool :=
  regionsGood f h copy && remainderGood h copy

/-! ## From accepted values to the tables in force (R41) -/

/-- The region of an accepted record, its touched flag clear (R75). -/
def RawRegion.toRegion (r : RawRegion) : Region :=
  { port := if r.port = 0 then .p0 else .p1, imageClass := r.imageClass, first := r.first,
    count := r.count,
    write := if r.write = 0 then .deny else if r.write = 1 then .denyTrip else .allowMark,
    read := if r.read = 0 then .pass else .blank, patrol := decide (r.patrol = 1), touched := false }

/-- The class of an accepted code (12.1). -/
def classOf (n : Nat) : CommandClass :=
  match n with
  | 0 => .read
  | 1 => .program
  | 2 => .erase
  | 3 => .mode4
  | 4 => .mode3
  | 5 => .pass
  | _ => .block

/-- The address length of an accepted code (12.1). -/
def addressOf (n : Nat) : AddressLength :=
  match n with
  | 0 => .zero
  | 3 => .three
  | 4 => .four
  | _ => .track

/-- The lane count of an accepted code (12.1). -/
def lanesOf (n : Nat) : Lanes :=
  match n with
  | 1 => .one
  | 2 => .two
  | _ => .four

/-- The erase extent of an accepted code (12.1). An entry of a class other than ERASE may hold any code,
neither checked nor used (R45): one above 3 counts as WHOLE there, the model's choice (assumption log
44). -/
def extentOf (n : Nat) : EraseExtent :=
  match n with
  | 0 => .kib4
  | 1 => .kib32
  | 2 => .kib64
  | _ => .whole

/-- The class table entry of an accepted record (R45). -/
def RawClass.toEntry (e : RawClass) : ClassEntry :=
  { command := e.command, cls := classOf e.cls, address := addressOf e.address,
    addressLanes := lanesOf e.addressLanes, dataLanes := lanesOf e.dataLanes, dummy := e.dummy,
    extent := extentOf e.extent }

/-- The global segments of a list of regions with their region indices, in the order of the digest
list: regions in index order, segments ascending within each (R49). -/
def segmentOrder (regions : List Region) : List (Nat × Nat) :=
  regions.zipIdx.flatMap (fun e => (List.range e.1.count).map (fun k => (e.1.segmentAt k, e.2)))

/-- The segment table of a manifest: every digest in its entry, UNSEEN, with its parity (R49, R79). -/
def buildSegments (regions : List Region) (digests : List Digest) : List SegEntry :=
  ((segmentOrder regions).zip digests).map (fun e =>
    { seg := e.1.1, digest := e.2, state := .unseen, region := e.1.2,
      parity := Config.segParity e.2 e.1.2 })

end Sys2Proof.Machine
end

