-- ==== Sys2Proof/Machine/Authentication.lean ====
section
/-! DEFINITION. RESET, RESET_END, IDENTITY_READ_END, HEADER_READ_END and BODY_READ_END: power-up
authentication from the reset event to RUN, RECOVERY or HALTED (chapter 4). -/

namespace Sys2Proof.Machine

/-! ## RESET (R55) -/

/-- RESET: every block takes its reset values; the fuses and the levels of the upstream chip selects
carry over. An ADVANCE operation under way is cut (R55, R39, R24). -/
def execReset (s : State) : Host.Outcome State Fault Refusal :=
  let t := s.cutAdvance
  .next (State.afterReset t.pending t.fuses t.port0.upstream t.port1.upstream t.drawn)

/-! ## RESET_END and the key store check (R55, R26, R57) -/

/-- The outcomes of the key store check (R26). -/
inductive KeyOutcome where
  | corrupt
  | noUsable
  | good
deriving DecidableEq, Repr

/-- A slot's check value is equal, or the slot is absent (R25, R26). -/
def KeySlot.sound (k : KeySlot) : Bool := !k.provisioned || decide (crc32 k.key = k.check)

/-- The key store check (R26). -/
def Fuses.keyCheck (f : Fuses) : KeyOutcome :=
  if !(List.range 4).all (fun i => (f.slot i).sound) then .corrupt
  else if (List.range 4).any (fun i => f.usable i) then .good
  else .noUsable

/-- RESET_END: the timebase counts, and the key store check decides: the identity reads, a NO_KEY
record and RECOVERY, or HALTED (R55, R26, R57). -/
def execResetEnd (s : State) : Host.Outcome State Fault Refusal :=
  if s.lines.rst then
    let t : State := { s with lines := { s.lines with rst := false } }
    match s.fuses.keyCheck with
    | .corrupt => .next t.enterHalted
    | .noUsable => .next (t.pushFault .noKey none none none 0).enterRecovery
    | .good =>
      .next (({ t with control := { t.control with step := .identities } } : State).startRead .manifest
        (identityRead .p0 .identity))
  else .next s

/-! ## IDENTITY_READ_END (R58) -/

/-- The header read of an anchor: 128 bytes from its base (R59, R135). -/
def Fuses.headerRead (f : Fuses) (a : Anchor) : FetchRead :=
  f.dataRead .p0 (.header a) (f.anchorBase a * 131072) 128

/-- IDENTITY_READ_END: the three bytes become the port's pending identity; port 1's read follows
port 0's, and the step becomes HEADERS after port 1 (R58). -/
def execIdentityReadEnd (b0 b1 b2 : Byte) (s : State) : Host.Outcome State Fault Refusal :=
  match s.engine.read with
  | some { port := .p0, kind := .identity, .. } =>
    let t := s.closeRead
    .next (({ t with control := { t.control with pending0 := some ⟨b0, b1, b2⟩ } } : State).startRead
      .manifest (identityRead .p1 .identity))
  | some { port := .p1, kind := .identity, .. } =>
    let t := s.closeRead
    .next (({ t with control := { t.control with pending1 := some ⟨b0, b1, b2⟩, step := .headers } } : State).startRead
      .manifest (t.fuses.headerRead .primary))
  | _ => .next s

/-! ## HEADER_READ_END (R59 to R61, R63, R64) -/

/-- A candidate is rejected: a MANIFEST_REJECTED record is pushed (R64). -/
def State.reject (s : State) (a : Anchor) (reason : RejectReason) (cls : Nat) : State :=
  s.pushFault .manifestRejected none none none (rejectDetail a reason cls)

/-- The candidate list becomes this. -/
def State.setCandidates (s : State) (l : List Candidate) : State :=
  { s with control := { s.control with candidates := l } }

/-- The candidates in evaluation order: the higher sequence number first, the primary first on a
tie (R60). The list is in the order of the header reads, primary before fallback. -/
def orderCandidates : List Candidate → List Candidate
  | [a, b] => if a.sequence < b.sequence then [b, a] else [a, b]
  | l => l

/-- The body read of a candidate: from offset 128 through the signature (R62, R135). -/
def Fuses.bodyRead (f : Fuses) (c : Candidate) : FetchRead :=
  f.dataRead .p0 .body (f.anchorBase c.anchor * 131072 + 128) (headerBodyLength c.header - 64)

/-- Evaluation of the candidates that remain, in list order: a candidate whose header fails is
rejected; one whose header passes has its body read; with none left, NO_MANIFEST and RECOVERY
(R61, R63, R64). -/
def State.evaluate (s : State) : List Candidate → State
  | [] => ((s.setCandidates []).pushFault .noManifest none none none 0).enterRecovery
  | c :: rest =>
    match headerReject s.fuses c.header with
    | some reason => (s.reject c.anchor reason 0).evaluate rest
    | none => (s.setCandidates (c :: rest)).startRead .manifest (s.fuses.bodyRead c)

/-- The magic of a header just read is judged: NO_MAGIC, or a candidate (R59). -/
def State.takeHeader (s : State) (a : Anchor) (bytes : List Byte) : State :=
  if headerMagic bytes = manifestMagic then
    s.setCandidates (s.control.candidates ++ [⟨a, bytes, headerSequence bytes, none⟩])
  else s.reject a .noMagic 0

/-- The effect of HEADER_READ_END: after the primary the fallback's header is read; after the
fallback the list is ordered and evaluation begins (R59, R60). -/
def State.headerEnd (s : State) (bytes : List Byte) : State :=
  match s.engine.read with
  | some { kind := .header .primary, .. } =>
    let t := s.closeRead.takeHeader .primary bytes
    t.startRead .manifest (t.fuses.headerRead .fallback)
  | some { kind := .header .fallback, .. } =>
    let t := s.closeRead.takeHeader .fallback bytes
    ({ t with control := { t.control with step := .evaluate } } : State).evaluate
      (orderCandidates t.control.candidates)
  | _ => s

/-- HEADER_READ_END. -/
def execHeaderReadEnd (bytes : List Byte) (s : State) : Host.Outcome State Fault Refusal :=
  whenWellFormed (.headerReadEnd bytes) (s.headerEnd bytes)

/-! ## BODY_READ_END (R62, R63, R65, R155) -/

/-- The candidate copy is committed to the tables in force (R41, R65). A deadline of 0 is not armed and
leaves the expiry time, which has no meaning then, as it was (R156, 8.1; assumption log 41).A
pending identity that is absent, as in no state that a run reaches, counts as FFFFFFh (assumption log 43). -/
def State.commit (s : State) (c : Candidate) (copy : CandidateCopy) (differences : List Int) : State :=
  let h := c.header
  let t := s.putSettings copy.settings
  let regions := copy.regions.map RawRegion.toRegion
  { t with
    regions := regions
    segments := buildSegments regions copy.digests
    classTable := copy.classes.map RawClass.toEntry
    control := { t.control with
      phase := .run, step := .done, pending0 := none, pending1 := none, candidates := []
      context := some
        { identity0 := t.control.pending0.getD ⟨0xFF, 0xFF, 0xFF⟩
          identity1 := t.control.pending1.getD ⟨0xFF, 0xFF, 0xFF⟩
          anchor := c.anchor, sequence := c.sequence, slot := headerSlot h, digest := copy.bodyDigest }
      differences := differences
      manifest := some
        { versions := headerVersions h, revoke := (headerRevoke h).setWidth 4,
          size0 := headerSize0 h, size1 := headerSize1 h } }
    gates := { t.gates with
      print := { t.gates.print with mask := headerPrintMask h }
      scan := { t.gates.scan with mask := headerScanMask h }
      deadline := if 0 < copy.settings.deadline then .armed else .disarmed
      deadlineAt := if 0 < copy.settings.deadline then after t.time (1000 * copy.settings.deadline)
                    else t.gates.deadlineAt }
    engine := { t.engine with job := .idle, read := none }
    lines := { t.lines with crst := false }
    port0 := t.port0.released, port1 := t.port1.released }

/-- A filtered tamper level found asserted at entry to RUN: its record carries phase RUN, as R155 says
of this record, and not the phase HOLD that R160 says of every record (assumption log 38). -/
def State.tamperAtEntry (s : State) : State :=
  if s.gates.tamper then (s.pushFault .tamper none none none 1).raise .tamper else s

/-- A candidate is accepted: the commit, the tamper check, and the gates' and the engine's judgment
in the same event (R65, R121, R155). -/
def State.accept (s : State) (c : Candidate) (copy : CandidateCopy) (differences : List Int) : State :=
  (s.commit c copy differences).tamperAtEntry.settleGates.judge

/-- The checks that follow the body read, in order: signature, rollback, structure (R62, R63). -/
def State.judgeBody (s : State) (c : Candidate) (rest : List Candidate) (bytes : List Byte)
    (copy : CandidateCopy) : State :=
  let differences := s.fuses.differences (headerVersions c.header)
  if !candidateSigned s.fuses c.header bytes copy then (s.reject c.anchor .signature 0).evaluate rest
  else match rollbackClass differences with
    | some cls => (s.reject c.anchor .rollback cls).evaluate rest
    | none =>
      if !structureGood s.fuses c.header copy then (s.reject c.anchor .structural 0).evaluate rest
      else s.accept c copy differences

/-- The candidate copy is filled from the body read (R62) and judged. -/
def State.bodyEnd (s : State) (bytes : List Byte) : State :=
  match s.engine.read, s.control.candidates with
  | some { kind := .body, .. }, c :: rest =>
    if bytes.length + 64 = headerBodyLength c.header then
      let copy := readCopy c.header bytes
      (s.closeRead.setCandidates ({ c with copy := some copy } :: rest)).judgeBody c rest bytes copy
    else s
  | _, _ => s

/-- BODY_READ_END. -/
def execBodyReadEnd (bytes : List Byte) (s : State) : Host.Outcome State Fault Refusal :=
  whenWellFormed (.bodyReadEnd bytes) (s.bodyEnd bytes)

end Sys2Proof.Machine
end

