-- ==== Sys2Proof/Machine/EngineEvents.lean ====
section
/-! DEFINITION. FETCH_DATA_BYTE, PORT_AVAILABLE and PATROL_TIMER_EXPIRY: the events that bring the
fetch engine its bytes and its ports (chapter 7). -/

namespace Sys2Proof.Machine

/-- A FILL or PATROL read completes with its last byte: the port and the engine are idle, the gates
act on the verdict and the engine judges; a parity error has taken the part to HALTED instead (R128,
R133, R82). -/
def State.completeRead (s : State) : State :=
  if s.control.phase = .halted then s else s.endRead.settleGates.judge

/-- A whole byte of a FILL or PATROL read extends its context (R107). -/
def State.fetchByte (s : State) (i : Nat) (b : Byte) : State :=
  match s.pool.context i with
  | none => s
  | some c =>
    if c.fill + 1 = segmentBytes then (s.extend i b .fetch).completeRead else s.extend i b .fetch

/-- FETCH_DATA_BYTE (R107, R128, R133). -/
def execFetchDataByte (b : Byte) (s : State) : Host.Outcome State Fault Refusal :=
  match s.engine.read with
  | none => .next s
  | some r =>
    match r.kind with
    | .fill i | .patrol i => .next (s.fetchByte i b)
    | .identity | .header _ | .body | .wakeIdentity | .wakeBody => .next s

/-- PORT_AVAILABLE: the running holdoff of a deselected port elapses, the port becomes available and
the engine judges (R21, R122). -/
def execPortAvailable (p : Port) (s : State) : Host.Outcome State Fault Refusal :=
  match (s.port p).holdoff with
  | none => .next s
  | some h =>
    if (s.port p).upstream then .next s
    else
      let t := s.reachTime (after (s.port p).deselect h)
      .next (t.setPort p { t.port p with available := true, holdoff := none }).judge

/-- PATROL_TIMER_EXPIRY: the running patrol timer expires, the due flag is set and the engine judges
(R130, R131). -/
def execPatrolTimerExpiry (s : State) : Host.Outcome State Fault Refusal :=
  match s.engine.timer.start with
  | none => .next s
  | some start =>
    let t := s.reachTime (after start (1000 * s.engine.timer.interval))
    .next ({ t with engine := { t.engine with
      timer := { t.engine.timer with start := none }, due := true } } : State).judge

end Sys2Proof.Machine
end

