-- ==== Sys2Proof/Machine/Upstream.lean ====
section
/-! DEFINITION. UPSTREAM_CS_ASSERT, COMMAND_BYTE, ADDRESS_COMPLETE, READ_DATA_BYTE and
UPSTREAM_CS_DEASSERT: the upstream port and the ownership of the downstream ports (chapter 1). -/

namespace Sys2Proof.Machine

/-- The reply of a taken request replaces the buffer whole (R171). -/
def State.reply (s : State) (tag code : Byte) (st : Status) (data : List Byte) : State :=
  { s with buffer := { state := .ready, tag := tag, code := code, status := some st, data := data } }

/-- The open transaction becomes this. -/
def State.setTransaction (s : State) (t : Transaction) : State := { s with transaction := some t }

/-! ## UPSTREAM_CS_ASSERT (R1, R3, R21, R22, R187) -/

/-- A FILL or PATROL read on the port is aborted: its context keeps its fill with source NONE (R22,
R107, R129). A wake read is not aborted (R21, R136). -/
def State.abortFill (s : State) (p : Port) : State :=
  match s.engine.read with
  | none => s
  | some r =>
    if r.port = p then
      match r.kind with
      | .fill i | .patrol i =>
        (s.setSlot i ((s.pool.context i).map (fun c => { c with source := .nothing }))).endRead
      | .identity | .header _ | .body | .wakeIdentity | .wakeBody => s
    else s

/-- A port whose upstream chip select is asserted: PASS_THROUGH owns it, unless a wake read has it,
and it is unavailable (R21). -/
def PortState.selected (q : PortState) : PortState :=
  { q with owner := if q.owner = .fetch then .fetch else .passThrough, available := false, holdoff := none }

/-- A fresh decode record: stage COMMAND, disposition PENDING, its handling fixed by the phase and
power state now (R1, R3). The current address is filled with 0 until a start address is received, a
value the manual does not give (assumption log 33). -/
def State.openTransaction (s : State) (p : Port) : State :=
  s.setTransaction
    { port := p, waking := decide (s.power.state = .waking), phase := s.control.phase, stage := .command,
      command := none, entry := none, addressLength := 0, disposition := .pending, start := none,
      current := 0, received := [], relayed := [], channel := .awaiting }

/-- An assertion opens a transaction: in DOZE always (R187), else where the other chip select is
deasserted (R1; assumption log 14). -/
def State.opensTransaction (s : State) (p : Port) : Bool :=
  decide (s.power.state = .doze) || !(s.port (otherPort p)).upstream

/-- An upstream chip select is asserted while the part takes traffic: WAKING starts in DOZE, a fetch
read on the port is aborted, the port changes owner, and a transaction opens where it may (R1, R3, R21,
R22, R187). -/
def State.selectPort (s : State) (p : Port) : State :=
  let a := (if s.power.state = .doze then s.startWaking else s).abortFill p
  let b := a.setPort p (a.port p).selected
  (if s.opensTransaction p then b.openTransaction p else b).judge

/-- UPSTREAM_CS_ASSERT. In HOLD and HALTED the assertion changes the line's level alone (R3, R21). -/
def execUpstreamCsAssert (p : Port) (s : State) : Host.Outcome State Fault Refusal :=
  if (s.port p).upstream then .next s
  else
    let t := s.setPort p { s.port p with upstream := true }
    .next (if t.listening then t.selectPort p else t)

/-! ## Dispositions (R5, R6, R13 to R18) -/

/-- The stage that follows the address (R9). -/
def stageAfterAddress (dummy : Nat) : Stage := if dummy = 0 then .data else .dummy

/-- A transaction is forwarded: its downstream chip select is asserted, and the bytes already received
are replayed downstream ahead of the rest (R18). For a command forwarded at its command byte that is this
byte alone; for a PROGRAM or ERASE judged at its last address byte, the command and address bytes. -/
def State.forward (s : State) (t : Transaction) : State :=
  (s.setPort t.port { s.port t.port with select := true }).setTransaction
    { t with disposition := .forward, relayed := t.received.reverse }

/-- A whole byte runs on the downstream lanes after those before it (R18). -/
def Transaction.relay (t : Transaction) (b : Byte) : Transaction := { t with relayed := b :: t.relayed }

/-- A command is blocked: a BLOCKED record and the BLOCKED trigger (R13). -/
def State.blockCommand (s : State) (t : Transaction) (b : Byte) : State :=
  (((s.setTransaction { t with disposition := .block }).pushFault .blocked none none none b).raise
    .blocked).settleGates

/-- The denial of a write trips by the policy of the named segment's region (R147, R17). -/
def State.tripDenied (s : State) (g : Nat) : State :=
  match s.regionIndex g, s.regionOf g with
  | some i, some r => if r.write = .denyTrip then s.tripRegion i else s
  | _, _ => s

/-- A write is blocked: a WRITE_DENIED record naming the lowest blocking segment, and the denial's
trips (R17, R147, R148). -/
def State.denyWrite (s : State) (t : Transaction) (b : Byte) (g : Nat) : State :=
  let u := (s.setTransaction { t with disposition := .block }).pushFault .writeDenied (s.regionIndex g)
    (some g) (some (flatAddress t.port (t.start.getD 0))) b
  ((u.tripDenied g).raise .writeDenied).settleGates

/-- A PROGRAM or ERASE is judged whole: blocked, or forwarded with its report in RUN (R16 to R18,
R87). -/
def State.judgeWrite (s : State) (t : Transaction) (e : ClassEntry) (b : Byte) : State :=
  let run := s.affected t.port e t.start
  match s.lowestBlocking t.phase run with
  | some g => s.denyWrite t b g
  | none =>
    let u := s.forward t
    if t.phase = .run then (u.reportWrite run).settleGates.judge else u

/-- A listed command outside WAKING takes its class's disposition (R5, R14). -/
def State.disposeListed (s : State) (t : Transaction) (e : ClassEntry) (b : Byte) : State :=
  match e.cls with
  | .read | .pass | .mode4 | .mode3 => s.forward t
  | .block => s.blockCommand t b
  | .program | .erase =>
    if t.addressLength = 0 then s.judgeWrite t e b else s.setTransaction { t with disposition := .pending }

/-- A whole command byte: an escape transaction, a WAKING transaction, an unlisted command or a
listed one (R4, R5, R6, R9, R19). Two points are the model's choice: a transaction that has no entry and
is not forwarded, an escape transaction or an unlisted command that is blocked (R6) or dropped in WAKING
(R19), goes to stage DATA (assumption log 32), and a READ decoded in WAKING, framed and read as FFh, has
disposition DROP like the other commands there (assumption log 31). -/
def State.takeCommand (s : State) (t : Transaction) (b : Byte) : State :=
  let t := { t with command := some b, received := [b] }
  if b = escapeByte then s.setTransaction { t with disposition := .request, stage := .data }
  else match s.lookup b with
    | none =>
      let t := { t with stage := .data }
      if t.waking then s.setTransaction { t with disposition := .drop }
      else match s.unlistedAction with
        | .pass => s.forward t
        | .block => s.blockCommand t b
    | some e =>
      let n := s.resolveLength t.port e.address
      let t := { t with entry := some e, addressLength := n,
                        stage := if n = 0 then stageAfterAddress e.dummy else .address }
      if t.waking then s.setTransaction { t with disposition := .drop }
      else s.disposeListed t e b

/-- COMMAND_BYTE. -/
def execCommandByte (b : Byte) (s : State) : Host.Outcome State Fault Refusal :=
  match s.transaction with
  | none => .next s
  | some t => .next (if t.stage = .command then s.takeCommand t b else s)

/-! ## ADDRESS_COMPLETE (R9, R11, R14) -/

/-- The start address is recorded, the address bytes of a forwarded transaction run downstream, and a
pending PROGRAM or ERASE is judged (R9, R11, R14, R18). -/
def State.takeAddress (s : State) (t : Transaction) (bytes : List Byte) : State :=
  let a := addressValue bytes % addressSpace t.addressLength (s.portSize t.port)
  let u := { t with start := some a, current := a, received := t.received ++ bytes,
                    relayed := if t.disposition = .forward then bytes.reverse ++ t.relayed else t.relayed,
                    stage := stageAfterAddress ((t.entry.map ClassEntry.dummy).getD 0) }
  match t.disposition, t.entry, t.command with
  | .pending, some e, some b => s.judgeWrite u e b
  | _, _, _ => s.setTransaction u

/-- ADDRESS_COMPLETE. -/
def execAddressComplete (bytes : List Byte) (s : State) : Host.Outcome State Fault Refusal :=
  whenWellFormed (.addressComplete bytes)
    (match s.transaction with
    | none => s
    | some t =>
      if t.stage = .address ∧ bytes.length = t.addressLength then s.takeAddress t bytes else s)

/-! ## READ_DATA_BYTE (R19, R20, R90) -/

/-- A byte is delivered to the controller. -/
def State.deliver (s : State) (b : Byte) : State := { s with delivered := some b }

/-- The class of a transaction's entry, if it has one. -/
def Transaction.cls (t : Transaction) : Option CommandClass := t.entry.map ClassEntry.cls

/-- The transaction is a READ whose entry has an address. -/
def Transaction.addressedRead (t : Transaction) : Bool :=
  decide (t.cls = some .read) && decide (t.addressLength ≠ 0)

/-- The transaction has reached its data: whole data bytes exist for it (R9, R12). -/
def Stage.carriesData : Stage → Bool
  | .dummy | .data => true
  | .command | .address => false

/-- A whole data byte is counted, in either direction: the dummy clocks are over, and the current
address, where the command has one, advances by 1 with the wrap of R11 (R9, R11, R12). -/
def State.countByte (s : State) (t : Transaction) : State :=
  s.setTransaction { t with
    stage := .data
    current := if t.addressLength = 0 then t.current
               else nextAddress t.addressLength (s.portSize t.port) t.current }

/-- A whole data byte of a forwarded READ with an address: delivered as returned or FFh, counted, and
in RUN and ACTIVE reported (R11, R20, R90). -/
def State.deliverRead (s : State) (t : Transaction) (b : Byte) : State :=
  let flat := flatAddress t.port t.current
  let blank := decide (t.phase = .run) && s.blanked (flat / segmentBytes)
  let u := (s.deliver (if blank then 0xFF else b)).countByte t
  if s.control.phase = .run ∧ s.power.state = .active then
    (u.reportByte flat b).settleGates.judge
  else u

/-- READ_DATA_BYTE: every whole data byte of a transaction, the bytes sent for programming among them
(R12; assumption log 22). A byte of a transaction that carries no data yet, or that waits for its
judgment, or that is an escape transaction, is no data byte; blocked and WAKING transactions read FFh,
before their data too; a forwarded one runs its byte on the downstream lanes (R18) and delivers what flash
returned, and a READ's byte goes on as R20 states. -/
def execReadDataByte (b : Byte) (s : State) : Host.Outcome State Fault Refusal :=
  match s.transaction with
  | none => .next s
  | some t =>
    if t.stage.carriesData then
      match t.disposition with
      | .pending | .request => .next s
      | .block | .drop => .next ((s.deliver 0xFF).countByte t)
      | .forward =>
        .next (if t.addressedRead then s.deliverRead (t.relay b) b else (s.deliver b).countByte (t.relay b))
    else if t.disposition = .block ∨ t.disposition = .drop then .next (s.deliver 0xFF)
    else .next s

/-! ## UPSTREAM_CS_DEASSERT (R1, R10, R14, R20, R21, R176) -/

/-- A forwarded transaction ends: its downstream chip select is deasserted; MODE4 and MODE3 set the
tracked mode; a READ whose bytes were reported has its gap judged (R10, R18, R20, R111). -/
def State.endForward (s : State) (t : Transaction) : State :=
  let q := { s.port t.port with select := false }
  match t.cls with
  | some .mode4 => s.setPort t.port { q with tracked := .four }
  | some .mode3 => s.setPort t.port { q with tracked := .three }
  | some .read =>
    let u := s.setPort t.port q
    if s.control.phase = .run ∧ s.power.state = .active ∧ t.addressLength ≠ 0 then u.judgeGap else u
  | some .pass | some .program | some .erase | some .block | none => s.setPort t.port q

/-- The open transaction of a port ends and its record is discarded: a PENDING write is dropped, an
accepted request without its last parameter byte is taken with BAD_LENGTH (R1, R14, R176). -/
def State.endTransaction (s : State) (p : Port) : State :=
  match s.transaction with
  | none => s
  | some t =>
    if t.port = p then
      let u : State := { s with transaction := none }
      match t.disposition with
      | .forward => u.endForward t
      | .request =>
        match t.channel with
        | .parameters code tag => u.reply tag code .badLength []
        | .awaiting | .frame _ | .done => u
      | .pending | .block | .drop => u
    else s

/-- A port at the deassertion of its upstream chip select: owner NONE unless a wake read has it, the
deselect time recorded, and unavailable until the holdoff in force has elapsed; a holdoff of 0
leaves it available (R21). -/
def PortState.deselected (q : PortState) (now : Time) (holdoff : Nat) : PortState :=
  { q with owner := if q.owner = .fetch then .fetch else .nobody, deselect := now,
           available := decide (holdoff = 0), holdoff := if holdoff = 0 then none else some holdoff }

/-- An upstream chip select is deasserted while the part takes traffic. -/
def State.deselectPort (s : State) (p : Port) : State :=
  let t := s.endTransaction p
  (t.setPort p ((t.port p).deselected t.time t.settings.holdoff)).judge

/-- UPSTREAM_CS_DEASSERT. In HOLD and HALTED the deassertion changes the line's level alone (R3,
R21). -/
def execUpstreamCsDeassert (p : Port) (s : State) : Host.Outcome State Fault Refusal :=
  if (s.port p).upstream then
    let t := s.setPort p { s.port p with upstream := false }
    .next (if t.listening then t.deselectPort p else t)
  else .next s

end Sys2Proof.Machine
end

