-- ==== Sys2Proof/Machine/Requests.lean ====
section
/-! DEFINITION. FETCH, UNKNOWN_REQUEST, REQUEST_LENGTH_BYTE and the twelve requests STATUS, VERDICTS,
FAULT_READ, FAULT_ACK, REARM, FORCE_OFF, SETTINGS, LOCK, FILL_MASK, TIME, DOZE and ADVANCE, with
FUSE_BIT_VERIFY (chapter 10, 2.6).

A request reaches the channel in two events: its length byte, where it is judged (R174), and its last
parameter byte, where it is taken (R172). REQUEST_LENGTH_BYTE is the first alone; a request without
parameters is taken there. A request's own command is the second. Where no length byte has come yet,
the request's own command stands for the whole request, its length byte with the right length
included (assumption log 10). -/

namespace Sys2Proof.Machine

/-! ## Taking a request (R171, R172, R174) -/

/-- The request channel's place in the open transaction. -/
def State.setChannel (s : State) (c : Channel) : State :=
  { s with transaction := s.transaction.map (fun t => { t with channel := c }) }

/-- The request channel's place, where the open transaction is an escape transaction (R4). -/
def State.channel (s : State) : Option Channel :=
  match s.transaction with
  | none => none
  | some t => if t.disposition = .request then some t.channel else none

/-- A request's own command: taken if the channel waits for this request's parameters, or if the
channel is at its code byte and the request passes R174 with its right length. The rest of the
transaction's bytes are ignored. Where no such request can arrive the command changes nothing. -/
def State.request (s : State) (code tag : Byte) (length : Nat) (taken : State → State) : State :=
  match s.channel with
  | some .awaiting =>
    match s.judgeRequest code length with
    | .discard => s.setChannel .done
    | .refuse st => (s.setChannel .done).reply tag code st []
    | .accept => taken (s.setChannel .done)
  | some (.parameters c g) => if c = code ∧ g = tag then taken (s.setChannel .done) else s
  | some (.frame _) | some .done | none => s

/-- The engine judges when this event has set boot-confirmed (R121). -/
def State.judgeIfConfirmed (s : State) (before : State) : State :=
  if s.control.bootConfirmed && !before.control.bootConfirmed then s.judge else s

/-! ## What each request does when it is taken -/

/-- STATUS (R177). -/
def State.takeStatus (s : State) (tag : Byte) : State := s.reply tag codeStatus .ok s.statusData

/-- VERDICTS: an undefined format is refused with BAD_REQUEST (R178). -/
def State.takeVerdicts (s : State) (tag mask0 mask1 format : Byte) : State :=
  if format = 0 then s.reply tag codeVerdicts .ok (s.verdictData (flags16 mask0 mask1) false)
  else if format = 1 then s.reply tag codeVerdicts .ok (s.verdictData (flags16 mask0 mask1) true)
  else s.reply tag codeVerdicts .badRequest []

/-- FAULT_READ (R163). -/
def State.takeFaultRead (s : State) (tag depth : Byte) : State :=
  match s.faults[depth.toNat]? with
  | some r => s.reply tag codeFaultRead .ok r.bytes
  | none => s.reply tag codeFaultRead .empty []

/-- The alert line after a record is removed: in LEVEL mode it follows the depth (R167); in PULSE
mode nothing changes (R168). -/
def Alert.acknowledge (a : Alert) (mode : AlertMode) (depth : Nat) : Alert :=
  match mode with
  | .level => { a with asserted := decide (0 < depth) }
  | .pulse => a

/-- FAULT_ACK (R164). -/
def State.takeFaultAck (s : State) (tag : Byte) : State :=
  match s.faults with
  | [] => s.reply tag codeFaultAck .empty []
  | r :: rest =>
    ({ s with faults := rest,
              alert := s.alert.acknowledge s.settings.alertMode rest.length } : State).reply
      tag codeFaultAck .ok r.bytes

/-- The selected gates of a gate mask: bit 0 print, bit 1 scan, the rest ignored (R179, R193). -/
def selectsPrint (gates : Byte) : Bool := gates.getLsbD 0
def selectsScan (gates : Byte) : Bool := gates.getLsbD 1

/-- The latches of the selected gates are cleared (R150). -/
def State.clearLatches (s : State) (print scan : Bool) : State :=
  { s with gates := { s.gates with
      print := { s.gates.print with latch := s.gates.print.latch && !print }
      scan := { s.gates.scan with latch := s.gates.scan.latch && !scan } } }

/-- A selected gate's latch is set (R150). -/
def State.anySelectedLatch (s : State) (gates : Byte) : Bool :=
  (selectsPrint gates && s.gates.print.latch) || (selectsScan gates && s.gates.scan.latch)

/-- REARM (R150). -/
def State.takeRearm (s : State) (tag gates : Byte) : State :=
  if s.anySelectedLatch gates then
    (((s.clearLatches (selectsPrint gates) (selectsScan gates)).settleGates).judgeIfConfirmed s).reply
      tag codeRearm .ok []
  else s.reply tag codeRearm .notTripped []

/-- FORCE_OFF (R151). -/
def State.takeForceOff (s : State) (tag gates : Byte) : State :=
  ((s.latchGates (selectsPrint gates) (selectsScan gates)).settleGates).reply tag codeForceOff .ok []

/-- The settings in force with the six carried values, clamped (R180, R47). -/
def Settings.carried (t : Settings)
    (holdoff0 holdoff1 patrol0 patrol1 alert printSet scanSet interval : Byte) : Settings :=
  { t with
    holdoff := clampHoldoff (leNat [holdoff0, holdoff1])
    patrol := clampPatrol (leNat [patrol0, patrol1])
    alertMode := clampAlertMode alert
    printSet := clampTriggers printSet
    scanSet := clampTriggers scanSet
    interval := interval.toNat }

/-- SETTINGS (R180): the new settings follow the old, unless the lock is set. -/
def State.takeSettings (s : State) (tag : Byte) (new : Settings) : State :=
  if s.lock then s.reply tag codeSettings .locked []
  else ((s.putSettings new).judge).reply tag codeSettings .ok new.echo

/-- LOCK (R180). -/
def State.takeLock (s : State) (tag : Byte) : State :=
  ({ s with lock := true } : State).reply tag codeLock .ok []

/-- FILL_MASK (R181, R126). -/
def State.takeFillMask (s : State) (tag mask0 mask1 : Byte) : State :=
  (({ s with engine := { s.engine with fillMask := flags16 mask0 mask1 } } : State).judge).reply
    tag codeFillMask .ok []

/-- TIME (R181). -/
def State.takeTime (s : State) (tag : Byte) : State :=
  s.reply tag codeTime .ok (leBytes 4 s.time.toNat)

/-- DOZE: entry starts in ACTIVE; in ENTERING_DOZE it runs on (R182). -/
def State.takeDoze (s : State) (tag : Byte) : State :=
  let t := s.reply tag codeDoze .ok []
  if s.power.state = .active then t.enterDoze else t

/-- The preconditions of ADVANCE (R35). -/
def State.advanceReady (s : State) : Bool :=
  s.control.bootConfirmed && s.segments.all (fun e => !(e.state == .failed))

/-- The bits ADVANCE programs, in order: d_c bits of each row c, then the unblown revocation flags of
the active manifest's revoke mask (R36). -/
def State.advancePlan (s : State) : List FuseTarget :=
  let revoke := match s.control.manifest with | some m => m.revoke | none => 0
  (List.range 8).flatMap (fun c => List.replicate (s.control.differences.getD c 0).toNat (.row c)) ++
    ((List.range 4).filter (fun i => revoke.getLsbD i && !s.fuses.revoked.getLsbD i)).map .flag

/-- The end of an ADVANCE operation: the stored differences are recomputed from the floors as they
now read, and the buffer becomes READY with the status (R37, R38, R31). -/
def State.endAdvance (s : State) (st : Status) : State :=
  { s with
    advance := []
    control := { s.control with
      differences := match s.control.manifest with
        | some m => s.fuses.differences m.versions
        | none => s.control.differences }
    buffer := { s.buffer with state := .ready, status := some st, data := [] } }

/-- ADVANCE (R35, R36, R37, R171): NOT_READY, or WORKING with the bits to program; with none to
program it completes in the same event. -/
def State.takeAdvance (s : State) (tag : Byte) : State :=
  if s.advanceReady then
    let t : State := { s with
      buffer := { state := .working, tag := tag, code := codeAdvance, status := none, data := [] }
      advance := s.advancePlan }
    if s.advancePlan.isEmpty then t.endAdvance .ok else t
  else s.reply tag codeAdvance .notReady []

/-! ## The commands -/

/-- FETCH: at the code byte the buffer is copied into the frame that the part drives from byte 2 on
(R173). -/
def execFetch (s : State) : Host.Outcome State Fault Refusal :=
  match s.channel with
  | some .awaiting => .next (s.setChannel (.frame s.buffer.frame))
  | some (.frame _) | some (.parameters _ _) | some .done | none => .next s

/-- The length byte of a request reaches the channel (R174). A request without parameters is taken
there (R172). -/
def State.lengthByte (s : State) (code tag : Byte) (length : Nat) : State :=
  match s.channel with
  | some .awaiting =>
    match s.judgeRequest code length with
    | .discard => s.setChannel .done
    | .refuse st => (s.setChannel .done).reply tag code st []
    | .accept =>
      let t := s.setChannel .done
      if code = codeStatus then t.takeStatus tag
      else if code = codeFaultAck then t.takeFaultAck tag
      else if code = codeLock then t.takeLock tag
      else if code = codeTime then t.takeTime tag
      else if code = codeDoze then t.takeDoze tag
      else if code = codeAdvance then t.takeAdvance tag
      else s.setChannel (.parameters code tag)
  | some (.frame _) | some (.parameters _ _) | some .done | none => s

/-- UNKNOWN_REQUEST: BAD_REQUEST at the length byte, whatever the length, unless the buffer is
WORKING (R174). -/
def execUnknownRequest (tag code : Byte) (s : State) : Host.Outcome State Fault Refusal :=
  whenWellFormed (.unknownRequest tag code) (s.lengthByte code tag 0)

/-- REQUEST_LENGTH_BYTE (R174). -/
def execRequestLengthByte (code tag length : Byte) (s : State) : Host.Outcome State Fault Refusal :=
  whenWellFormed (.requestLengthByte code tag length) (s.lengthByte code tag length.toNat)

/-- STATUS (R177). -/
def execStatus (tag : Byte) (s : State) : Host.Outcome State Fault Refusal :=
  .next (s.request codeStatus tag 0 (fun t => t.takeStatus tag))

/-- VERDICTS (R178). -/
def execVerdicts (tag mask0 mask1 format : Byte) (s : State) : Host.Outcome State Fault Refusal :=
  .next (s.request codeVerdicts tag 3 (fun t => t.takeVerdicts tag mask0 mask1 format))

/-- FAULT_READ (R163). -/
def execFaultRead (tag depth : Byte) (s : State) : Host.Outcome State Fault Refusal :=
  .next (s.request codeFaultRead tag 1 (fun t => t.takeFaultRead tag depth))

/-- FAULT_ACK (R164). -/
def execFaultAck (tag : Byte) (s : State) : Host.Outcome State Fault Refusal :=
  .next (s.request codeFaultAck tag 0 (fun t => t.takeFaultAck tag))

/-- REARM (R150). -/
def execRearm (tag gates : Byte) (s : State) : Host.Outcome State Fault Refusal :=
  .next (s.request codeRearm tag 1 (fun t => t.takeRearm tag gates))

/-- FORCE_OFF (R151). -/
def execForceOff (tag gates : Byte) (s : State) : Host.Outcome State Fault Refusal :=
  .next (s.request codeForceOff tag 1 (fun t => t.takeForceOff tag gates))

/-- SETTINGS (R180). -/
def execSettings (tag holdoff0 holdoff1 patrol0 patrol1 alert printSet scanSet interval : Byte)
    (s : State) : Host.Outcome State Fault Refusal :=
  .next (s.request codeSettings tag 8 (fun t => t.takeSettings tag
    (t.settings.carried holdoff0 holdoff1 patrol0 patrol1 alert printSet scanSet interval)))

/-- LOCK (R180). -/
def execLock (tag : Byte) (s : State) : Host.Outcome State Fault Refusal :=
  .next (s.request codeLock tag 0 (fun t => t.takeLock tag))

/-- FILL_MASK (R181). -/
def execFillMask (tag mask0 mask1 : Byte) (s : State) : Host.Outcome State Fault Refusal :=
  .next (s.request codeFillMask tag 2 (fun t => t.takeFillMask tag mask0 mask1))

/-- TIME (R181). -/
def execTime (tag : Byte) (s : State) : Host.Outcome State Fault Refusal :=
  .next (s.request codeTime tag 0 (fun t => t.takeTime tag))

/-- DOZE (R182). -/
def execDoze (tag : Byte) (s : State) : Host.Outcome State Fault Refusal :=
  .next (s.request codeDoze tag 0 (fun t => t.takeDoze tag))

/-- ADVANCE (R35, R183). -/
def execAdvance (tag : Byte) (s : State) : Host.Outcome State Fault Refusal :=
  .next (s.request codeAdvance tag 0 (fun t => t.takeAdvance tag))

/-! ## FUSE_BIT_VERIFY (R36 to R38) -/

/-- The detail byte of a FLOOR_PROGRAM record: c for row c, 8 + s for the flag of slot s (R38). -/
def FuseTarget.detail : FuseTarget → Byte
  | .row c => BitVec.ofNat 8 c
  | .flag slot => BitVec.ofNat 8 (8 + slot)

/-- FUSE_BIT_VERIFY: a bit that reads blown stays blown and the operation moves on or completes; a bit
that reads unblown counts as unblown and ends the operation with FUSE_FAIL (R36 to R38). -/
def execFuseBitVerify (blown : Bool) (s : State) : Host.Outcome State Fault Refusal :=
  match s.advance with
  | [] => .next s
  | target :: rest =>
    if blown then
      let t : State := { s with fuses := s.fuses.blow target, advance := rest }
      .next (if rest.isEmpty then t.endAdvance .ok else t)
    else .next ((s.pushFault .floorProgram none none none target.detail).endAdvance .fuseFail)

end Sys2Proof.Machine
end

