-- ==== Sys2Proof/Machine/GateEvents.lean ====
section
/-! DEFINITION. SEQUENCE_TIMER_EXPIRY, DEADLINE_EXPIRY, TAMPER_SAMPLE, ALERT_PULSE_END and
ALERT_GAP_END: the timed events of the gate unit and the alert line (chapters 8 and 9). -/

namespace Sys2Proof.Machine

/-- The expiry of a sequence timer that was replaced at this same instant comes: the restarted timer
still runs, so nothing else happens (R145, R157; assumption log 37). -/
def State.replacedExpiry (s : State) (timer : SequenceTimer) : State :=
  { s with gates := { s.gates with timer := some { timer with superseded := false } } }

/-- SEQUENCE_TIMER_EXPIRY: RISING becomes ON, FALLING becomes OFF, which may complete doze entry
(R140, R144, R186). An expiry of a timer replaced at this instant leaves the gate as it is (R145,
R157). -/
def execSequenceTimerExpiry (s : State) : Host.Outcome State Fault Refusal :=
  match s.gates.timer with
  | none => .next s
  | some timer =>
    if timer.awaitsReplaced s.time then .next (s.replacedExpiry timer) else
    let t := s.reachTime timer.dueAt
    match s.gates.print.state with
    | .rising => .next (t.printOn.judgeIfConfirmed s)
    | .falling => .next (t.setPrint .off none).completeDoze
    | .off | .on => .next s

/-- DEADLINE_EXPIRY: an ARMED deadline becomes EXPIRED, pushes its record and raises its trigger
(R156). -/
def execDeadlineExpiry (s : State) : Host.Outcome State Fault Refusal :=
  if s.gates.deadline = .armed then
    let t := s.reachTime s.gates.deadlineAt
    let u : State := { t with gates := { t.gates with deadline := .expired } }
    .next (((u.pushFault .deadline none none none 0).raise .deadline).settleGates)
  else .next s

/-- The tamper filter takes a sample: the filtered level changes at the fourth sample in a row that
differs from it (R153). -/
def GateUnit.sample (g : GateUnit) (high : Bool) : GateUnit :=
  if high = g.tamper then { g with tamperRun := 0 }
  else if g.tamperRun < 3 then { g with tamperRun := g.tamperRun + 1 }
  else { g with tamper := high, tamperRun := 0 }

/-- A filtered assertion pushes its record and raises the TAMPER trigger; in HALTED it changes the
live view alone (R154, R159). -/
def State.filteredAssertion (s : State) : State :=
  if s.control.phase = .halted then s
  else ((s.pushFault .tamper none none none 0).raise .tamper).settleGates

/-- TAMPER_SAMPLE: in every phase and power state from the end of reset on, every 1 ms (R153, R154). -/
def execTamperSample (high : Bool) (s : State) : Host.Outcome State Fault Refusal :=
  if s.lines.rst then .next s
  else
    let due := after s.gates.sampledAt 1000
    let t := s.reachTime due
    let u : State := { t with gates := { t.gates.sample high with sampledAt := due } }
    .next (if u.gates.tamper && !s.gates.tamper then u.filteredAssertion else u)

/-- ALERT_PULSE_END: the pulse's asserted time ends, the count falls by 1 and a deasserted time of
2 µs starts (R168). -/
def execAlertPulseEnd (s : State) : Host.Outcome State Fault Refusal :=
  match s.alert.timing with
  | .pulse start =>
    let t := s.reachTime (after start 2)
    .next { t with alert := { asserted := false, pendingPulses := t.alert.pendingPulses - 1,
                              timing := .gap t.time } }
  | .idle | .gap _ => .next s

/-- ALERT_GAP_END: the deasserted time ends; the next pending pulse begins, or the line is idle
(R168). -/
def execAlertGapEnd (s : State) : Host.Outcome State Fault Refusal :=
  match s.alert.timing with
  | .gap start =>
    let t := s.reachTime (after start 2)
    .next { t with alert := if 0 < t.alert.pendingPulses then t.alert.beginPulse t.time
                            else { t.alert with timing := .idle } }
  | .idle | .pulse _ => .next s

end Sys2Proof.Machine
end

