-- ==== Sys2Proof/Machine/Power.lean ====
section
/-! DEFINITION. WAKE_EDGE, SETTLE_TIMER_EXPIRY, WAKE_IDENTITY_READ_END and WAKE_CHECK: from DOZE back
to ACTIVE (chapter 11). -/

namespace Sys2Proof.Machine

/-- WAKE_EDGE: in DOZE it starts WAKING; elsewhere it has no effect (R187). -/
def execWakeEdge (s : State) : Host.Outcome State Fault Refusal :=
  .next (if s.listening ∧ s.power.state = .doze then s.startWaking else s)

/-- The timebase value at which the settle timer expires (R187). -/
def settleDue (start : Time) : Time := after start 1000

/-- SETTLE_TIMER_EXPIRY: RECOVERY returns to ACTIVE; RUN starts the WAKE job with the identity of
port 0 (R188, R136). -/
def execSettleTimerExpiry (s : State) : Host.Outcome State Fault Refusal :=
  match s.power.settle with
  | none => .next s
  | some start =>
    let t := s.reachTime (settleDue start)
    match s.control.phase with
    | .recovery => .next t.becomeActive
    | .run =>
      .next (({ t with power := { t.power with settle := none },
                       engine := { t.engine with wake0 := none, wake1 := none } } : State).startRead
        .wake (identityRead .p0 .wakeIdentity))
    | .hold | .halted => .next s

/-- A wake read ends: its port goes to PASS_THROUGH or NONE, with no current read (R136). -/
def State.closeWakeRead (s : State) : State :=
  match s.engine.read with
  | none => s
  | some r =>
    { s.setPort r.port (s.port r.port).afterWakeRead with engine := { s.engine with read := none } }

/-- The third wake read: the active anchor, its header first (R136). With no active anchor, as in no state
that a run reaches, it is the primary one (assumption log 43). -/
def State.wakeBodyRead (s : State) : FetchRead :=
  s.fuses.dataRead .p0 .wakeBody (s.fuses.anchorBase (s.activeAnchor.getD .primary) * 131072) 128

/-- WAKE_IDENTITY_READ_END: the identity is held, and the next wake read starts (R136). -/
def execWakeIdentityReadEnd (b0 b1 b2 : Byte) (s : State) : Host.Outcome State Fault Refusal :=
  match s.engine.read with
  | some { port := .p0, kind := .wakeIdentity, .. } =>
    let t := s.closeWakeRead
    .next (({ t with engine := { t.engine with wake0 := some ⟨b0, b1, b2⟩ } } : State).startRead
      .wake (identityRead .p1 .wakeIdentity))
  | some { port := .p1, kind := .wakeIdentity, .. } =>
    let t := s.closeWakeRead
    .next (({ t with engine := { t.engine with wake1 := some ⟨b0, b1, b2⟩ } } : State).startRead
      .wake t.wakeBodyRead)
  | _ => .next s

/-- The body length of a wake read's header lies in 128..131008 (R136). -/
def wakeLengthGood (bytes : List Byte) : Bool :=
  decide (128 ≤ headerBodyLength bytes) && decide (headerBodyLength bytes ≤ longestBody)

/-- The bytes a third wake read takes: to the end of the body, or the header alone (R136). -/
def wakeReadLength (bytes : List Byte) : Nat :=
  if wakeLengthGood bytes then headerBodyLength bytes else 128

/-- The items of the wake check that differ, as the detail byte of a WAKE_MISMATCH record: bit 0
IDENTITY_0, bit 1 IDENTITY_1, bit 2 DIGEST, bit 3 NO_DIGEST (R188, R161, 12.3). Bits 4 to 7, which 12.3 does not name,
are 0 (assumption log 35). -/
def wakeDetail (c : VerificationContext) (wake0 wake1 : Option Identity) (bytes : List Byte) : Nat :=
  flagBit 0 (decide (wake0 ≠ some c.identity0)) + flagBit 1 (decide (wake1 ≠ some c.identity1)) +
    (if wakeLengthGood bytes then
      flagBit 2 (decide (sha256 bytes ≠ c.digest) || decide (headerSequence bytes ≠ c.sequence) ||
        decide (headerSlot bytes ≠ c.slot))
    else flagBit 3 true)

/-- The end of the WAKE job: the third read closed, the engine IDLE. -/
def State.endWakeJob (s : State) : State :=
  let t := s.closeWakeRead
  { t with engine := { t.engine with job := .idle, wake0 := none, wake1 := none } }

/-- A matching wake check: ACTIVE again, with every verdict and latch kept; the gates and the engine
judge (R189). -/
def State.wakeMatch (s : State) : State := s.becomeActive.settleGates.judge

/-- A wake check that finds a change: the record, both latches, ACTIVE, and RECOVERY (R190). -/
def State.wakeMismatch (s : State) (detail : Nat) : State :=
  (((s.pushFault .wakeMismatch none none none (BitVec.ofNat 8 detail)).latchGates true
    true).becomeActive).enterRecovery

/-- The effect of WAKE_CHECK: the third wake read ends and its findings are compared (R188). -/
def State.wakeEnd (s : State) (bytes : List Byte) : State :=
  match s.engine.read, s.control.context with
  | some { kind := .wakeBody, .. }, some c =>
    if bytes.length = wakeReadLength bytes then
      let detail := wakeDetail c s.engine.wake0 s.engine.wake1 bytes
      if detail = 0 then s.endWakeJob.wakeMatch else s.endWakeJob.wakeMismatch detail
    else s
  | _, _ => s

/-- WAKE_CHECK. -/
def execWakeCheck (bytes : List Byte) (s : State) : Host.Outcome State Fault Refusal :=
  whenWellFormed (.wakeCheck bytes) (s.wakeEnd bytes)

end Sys2Proof.Machine
end

