-- ==== Sys2Proof/Machine/Dispatch.lean ====
section
/-! DEFINITION. The effect of a command on everything but the queue: one arm per command. -/

namespace Sys2Proof.Machine

def exec (i : Instr) (s : State) : Host.Outcome State Fault Refusal :=
  match i with
  | .reset => Sys2Proof.Machine.execReset s
  | .resetEnd => Sys2Proof.Machine.execResetEnd s
  | .identityReadEnd b0 b1 b2 => Sys2Proof.Machine.execIdentityReadEnd b0 b1 b2 s
  | .headerReadEnd bytes => Sys2Proof.Machine.execHeaderReadEnd bytes s
  | .bodyReadEnd bytes => Sys2Proof.Machine.execBodyReadEnd bytes s
  | .upstreamCsAssert port => Sys2Proof.Machine.execUpstreamCsAssert port s
  | .commandByte b => Sys2Proof.Machine.execCommandByte b s
  | .addressComplete bytes => Sys2Proof.Machine.execAddressComplete bytes s
  | .readDataByte b => Sys2Proof.Machine.execReadDataByte b s
  | .upstreamCsDeassert port => Sys2Proof.Machine.execUpstreamCsDeassert port s
  | .fetch => Sys2Proof.Machine.execFetch s
  | .unknownRequest tag code => Sys2Proof.Machine.execUnknownRequest tag code s
  | .status tag => Sys2Proof.Machine.execStatus tag s
  | .verdicts tag mask0 mask1 format => Sys2Proof.Machine.execVerdicts tag mask0 mask1 format s
  | .faultRead tag depth => Sys2Proof.Machine.execFaultRead tag depth s
  | .faultAck tag => Sys2Proof.Machine.execFaultAck tag s
  | .rearm tag gates => Sys2Proof.Machine.execRearm tag gates s
  | .forceOff tag gates => Sys2Proof.Machine.execForceOff tag gates s
  | .settings tag h0 h1 p0 p1 alert ps ss iv => Sys2Proof.Machine.execSettings tag h0 h1 p0 p1 alert ps ss iv s
  | .lock tag => Sys2Proof.Machine.execLock tag s
  | .fillMask tag mask0 mask1 => Sys2Proof.Machine.execFillMask tag mask0 mask1 s
  | .time tag => Sys2Proof.Machine.execTime tag s
  | .doze tag => Sys2Proof.Machine.execDoze tag s
  | .advance tag => Sys2Proof.Machine.execAdvance tag s
  | .fuseBitVerify blown => Sys2Proof.Machine.execFuseBitVerify blown s
  | .fetchDataByte b => Sys2Proof.Machine.execFetchDataByte b s
  | .portAvailable port => Sys2Proof.Machine.execPortAvailable port s
  | .sequenceTimerExpiry => Sys2Proof.Machine.execSequenceTimerExpiry s
  | .patrolTimerExpiry => Sys2Proof.Machine.execPatrolTimerExpiry s
  | .deadlineExpiry => Sys2Proof.Machine.execDeadlineExpiry s
  | .tamperSample high => Sys2Proof.Machine.execTamperSample high s
  | .alertPulseEnd => Sys2Proof.Machine.execAlertPulseEnd s
  | .alertGapEnd => Sys2Proof.Machine.execAlertGapEnd s
  | .wakeEdge => Sys2Proof.Machine.execWakeEdge s
  | .settleTimerExpiry => Sys2Proof.Machine.execSettleTimerExpiry s
  | .wakeIdentityReadEnd b0 b1 b2 => Sys2Proof.Machine.execWakeIdentityReadEnd b0 b1 b2 s
  | .wakeCheck bytes => Sys2Proof.Machine.execWakeCheck bytes s
  | .requestLengthByte code tag length => Sys2Proof.Machine.execRequestLengthByte code tag length s

end Sys2Proof.Machine
end

