-- ==== Sys2Proof/Safety.lean ====
section
/-! DEFINITION. What it means for a state of the part to be in order: the properties that the manual
states of every moment of a run, in the terms the statements use. -/

namespace Sys2Proof.Machine

/-! ## Gates and their lines (8.3, R140, R143) -/

/-- The gate lines follow the gate states (R143). -/
def State.linesFollow (s : State) : Prop :=
  s.lines.epwr = s.gates.print.state.powers ∧
    s.lines.earm = s.gates.print.state.arms ∧
    s.lines.scnen = s.gates.scan.state.arms

/-- The sequence timer runs in RISING and FALLING alone (R140), and the scan gate, whose interval is 0,
rests in OFF or ON (R142). -/
def State.timerFollows (s : State) : Prop :=
  (s.gates.timer.isSome = true ↔ s.gates.print.state = .rising ∨ s.gates.print.state = .falling) ∧
    (s.gates.scan.state = .off ∨ s.gates.scan.state = .on)

/-- A requirement mask is proven: every region it holds has all its segments VERIFIED (R138, R92). -/
def State.maskProven (s : State) (mask : BitVec 16) : Prop :=
  ∀ i, i < 16 → mask.getLsbD i = true →
    ∃ r, s.regions[i]? = some r ∧ s.regionSummary r = .verified ∧
      ∀ k, k < r.count → s.segState (r.segmentAt k) = some .verified

/-- The gate law of R140 and R143: the lines follow the gates, the print gate is OFF outside RUN, and a
gate stands in RISING or ON only in phase RUN and power state ACTIVE, with its mask proven and its latch
clear. -/
def State.gateLaw (s : State) : Prop :=
  s.linesFollow ∧ s.timerFollows ∧ (s.control.phase ≠ .run → s.gates.print.state = .off) ∧
    (s.gates.print.state = .rising ∨ s.gates.print.state = .on →
      s.control.phase = .run ∧ s.power.state = .active ∧ s.maskProven s.gates.print.mask ∧
        s.gates.print.latch = false) ∧
    (s.gates.scan.state = .on →
      s.control.phase = .run ∧ s.power.state = .active ∧ s.maskProven s.gates.scan.mask ∧
        s.gates.scan.latch = false)

/-- Both gates are settled: each stands in RISING or ON exactly when its condition holds and its latch is
clear, as every event leaves it (R140). -/
def State.settled (s : State) : Prop :=
  (s.gateGood s.gates.print = true ↔ s.gates.print.state = .rising ∨ s.gates.print.state = .on) ∧
    (s.gateGood s.gates.scan = true ↔ s.gates.scan.state = .on) ∧
    (s.gates.scan.state = .off ∨ s.gates.scan.state = .on)

/-! ## The context pool and the gap queue (R96, R113) -/

/-- A context agrees with the segment table: its fill lies below the segment's size, and its segment is
HASHING for role VERIFY and VERIFIED for role PATROL (R96). -/
def State.contextAgrees (s : State) (c : Context) : Prop :=
  c.fill < segmentBytes ∧
    s.segState c.seg = some (match c.role with | .verify => SegState.hashing | .patrol => SegState.verified)

/-- The pool law of R96 and R113: six slots, at most one PATROL context, no segment in two contexts, every
context in agreement with the segment table, every HASHING segment held by a VERIFY context, a gap queue
of at most 32 segments, none twice, each UNSEEN or HASHING; and nothing held in HOLD and RECOVERY. -/
def State.poolLaw (s : State) : Prop :=
  s.pool.slots.length = 6 ∧
    (∀ i j c d, s.pool.context i = some c → s.pool.context j = some d →
      c.seg = d.seg ∨ (c.role = .patrol ∧ d.role = .patrol) → i = j) ∧
    (∀ i c, s.pool.context i = some c → s.contextAgrees c) ∧
    (∀ g, s.segState g = some .hashing → ∃ i c, s.pool.context i = some c ∧ c.seg = g) ∧
    s.pool.gaps.length ≤ 32 ∧ s.pool.gaps.Nodup ∧
    (∀ g ∈ s.pool.gaps, s.segState g = some .unseen ∨ s.segState g = some .hashing) ∧
    (s.control.phase = .hold ∨ s.control.phase = .recovery →
      s.segments = [] ∧ s.pool.gaps = [] ∧ ∀ i, s.pool.context i = none)

/-! ## The current read of the fetch engine (R119, R120) -/

/-- The job whose reads are of a kind (7.1). -/
def ReadKind.job : ReadKind → Job
  | .identity | .header _ | .body => .manifest
  | .fill _ => .fill
  | .patrol _ => .patrol
  | .wakeIdentity | .wakeBody => .wake

/-- The read law of R119 and R120: a current read is of its job's kind; MANIFEST reads are made in HOLD,
FILL and PATROL reads in RUN and ACTIVE, WAKE reads in RUN and WAKING. While reset is held the phase is
HOLD and no read is in progress (R55, R119). The settle timer runs in WAKING alone, in RUN or RECOVERY
(R187). -/
def State.readLaw (s : State) : Prop :=
  (∀ r, s.engine.read = some r →
    s.engine.job = r.kind.job ∧
      match r.kind.job with
      | .manifest => s.control.phase = .hold
      | .fill | .patrol => s.control.phase = .run ∧ s.power.state = .active
      | .wake => s.control.phase = .run ∧ s.power.state = .waking
      | .idle => False) ∧
    (s.lines.rst = true → s.control.phase = .hold ∧ s.engine.read = none) ∧
    (s.power.settle.isSome = true →
      s.power.state = .waking ∧ (s.control.phase = .run ∨ s.control.phase = .recovery))

/-! ## Faults and the alert line (R160, R162, R167, R168, R170) -/

/-- The fault law of R160 and R162: at most three records, none of them made in HALTED. -/
def State.faultLaw (s : State) : Prop :=
  s.faults.length ≤ 3 ∧ ∀ r ∈ s.faults, r.phase ≠ .halted

/-- A pulse's asserted time is running (R168). -/
def AlertTime.isPulse : AlertTime → Bool
  | .pulse _ => true
  | .idle | .gap _ => false

/-- The alert law: in HALTED the line is asserted with no count (R170); in LEVEL mode it follows the
depth (R167), with no time of the line running (assumption log 34); in PULSE mode it is asserted during a pulse alone, and the count is at most 15 (R168). -/
def State.alertLaw (s : State) : Prop :=
  if s.control.phase = .halted then
    s.alert.asserted = true ∧ s.alert.pendingPulses = 0 ∧ s.alert.timing = .idle
  else match s.settings.alertMode with
    | .level =>
      s.alert.asserted = decide (0 < s.faults.length) ∧ s.alert.pendingPulses = 0 ∧ s.alert.timing = .idle
    | .pulse =>
      s.alert.asserted = s.alert.timing.isPulse ∧ s.alert.pendingPulses ≤ 15 ∧
        (s.alert.timing.isPulse = true → 0 < s.alert.pendingPulses)

/-! ## HALTED and the controller's reset (R67, R73, R74) -/

/-- In HALTED the outputs stand as R73 and R74 state and nothing is in progress. -/
def State.haltedLaw (s : State) : Prop :=
  s.control.phase = .halted →
    s.lines.crst = true ∧ s.lines.epwr = false ∧ s.lines.earm = false ∧ s.lines.scnen = false ∧
      s.alert.asserted = true ∧ s.transaction = none ∧ s.engine.job = .idle ∧ s.engine.read = none ∧
      s.advance = [] ∧ s.gates.print.state = .off ∧ s.gates.scan.state = .off ∧ s.gates.timer = none ∧
      s.gates.deadline = .disarmed ∧ s.alert.timing = .idle

/-- CRST_N is asserted exactly in HOLD and HALTED (R56, R67, R73). -/
def State.crstLaw (s : State) : Prop :=
  s.lines.crst = true ↔ s.control.phase = .hold ∨ s.control.phase = .halted

/-! ## Fuses (R24) -/

/-- Every bit of the first word that is blown is blown in the second. -/
def bitsGrow {w : Nat} (a b : BitVec w) : Prop := ∀ i, a.getLsbD i = true → b.getLsbD i = true

/-- Fuses grow in the rollback rows and the revocation flags alone, and no blown bit reads unblown
(R24). -/
def Fuses.grow (f g : Fuses) : Prop :=
  g.slots = f.slots ∧ g.primaryBase = f.primaryBase ∧ g.fallbackBase = f.fallbackBase ∧
    g.recoveryBase = f.recoveryBase ∧ g.recoveryCount = f.recoveryCount ∧
    g.engineCommand = f.engineCommand ∧ g.rows.length = f.rows.length ∧ bitsGrow f.revoked g.revoked ∧
    ∀ c, bitsGrow (f.rows.getD c 0) (g.rows.getD c 0)

/-! ## Requests (R171, R172, R174, R175) -/

/-- The channel waits for a request of this code and tag: for its parameters, or for the whole of it, with
the buffer not WORKING and the request accepted here (assumption log 10 and 13). -/
def State.awaits (s : State) (code tag : Byte) : Prop :=
  s.channel = some (.parameters code tag) ∨
    (s.channel = some .awaiting ∧ s.buffer.state ≠ .working ∧
      accepts s.control.phase s.requestPower code = true)

/-- A request has been answered and nothing else has changed: the response buffer is replaced whole and
the channel ignores the rest of the transaction (R171, R172). -/
def State.answered (s : State) (tag code : Byte) (st : Status) (data : List Byte) : State :=
  { s with
    transaction := s.transaction.map (fun t => { t with channel := .done })
    buffer := { state := .ready, tag := tag, code := code, status := some st, data := data } }

end Sys2Proof.Machine
end

