-- ==== Sys2Proof/Certificates/Slice0/Obligations.lean ====
section
/-! DEFINITION. The statements about the VGT410 model, made from the numbered rules of spec/. A docstring
names the rules a statement formalises, or says what it rests on. A statement that gives the state after a
command as an updated record says thereby that every field it does not name is unchanged. -/

open Sys2Proof Sys2Proof.Machine Host

/-! ## The block and its queue -/

/-- One step takes the command at the front of the queue and runs it on the state with the queue's rest
(the row's rule for a block; assumption log 16). On an empty queue one microsecond of the timebase passes,
unless reset is held, and nothing else changes (R184; that the idle step is one microsecond is the model's
choice, assumption log 1). -/
def Obligations.StepRunsTheFrontCommand : Prop :=
  ∀ s : State,
    (∀ c rest, s.pending = c :: rest → step s = exec c { s with pending := rest }) ∧
    (s.pending = [] →
      step s = .next { s with time := if s.lines.rst then s.time else s.time + 1 })

/-- Every command with operands that can occur answers a next state and leaves the queue alone; a command
with other operands is no event of the part and stops as ill formed (assumption log 17). -/
def Obligations.WellFormedCommandsComplete : Prop :=
  ∀ (c : Instr) (s : State),
    (c.wellFormed = true → ∃ t, exec c s = .next t ∧ t.pending = s.pending) ∧
      (c.wellFormed = false → exec c s = .fault .illFormed)

/-! ## Reset and power-up authentication (chapters 2 to 4) -/

/-- The state right after the power-on reset event (R55, R21, R10, R31, R48, R75, R79, R96, R119, R137,
R162, R171, R185): phase HOLD at KEY_CHECK with CRST_N asserted, gates, latches, masks, timers and lines
down, both ports idle and available in 3-byte mode, every table, queue and stack empty, power ACTIVE with
FPWR, and the timebase at 0. That both upstream chip selects are deasserted is the model's choice
(assumption log 9). -/
def Obligations.ResetStateIsAsTheManualGivesIt : Prop :=
  State.reset.control = { phase := .hold, step := .keyCheck, pending0 := none, pending1 := none,
                          candidates := [], context := none, bootConfirmed := false,
                          differences := [0, 0, 0, 0, 0, 0, 0, 0], manifest := none } ∧
    State.reset.lines = { rst := true, crst := true, epwr := false, earm := false, scnen := false } ∧
    State.reset.regions = [] ∧ State.reset.segments = [] ∧ State.reset.classTable = [] ∧
    State.reset.pool.slots = [none, none, none, none, none, none] ∧ State.reset.pool.gaps = [] ∧
    State.reset.pool.record = none ∧
    State.reset.faults = [] ∧
    State.reset.alert = { asserted := false, pendingPulses := 0, timing := .idle } ∧
    State.reset.buffer = { state := .empty, tag := 0, code := 0, status := none, data := [] } ∧
    State.reset.lock = false ∧ State.reset.advance = [] ∧
    State.reset.settings = { deadline := 0, interval := 0, holdoff := 0, patrol := 0, alertMode := .level,
                             printSet := 0, scanSet := 0, unlisted := .pass } ∧
    State.reset.engine = { job := .manifest, read := none, cursor := 0, timer := { start := none, interval := 0 },
                           due := false, fillMask := 0, wake0 := none, wake1 := none } ∧
    State.reset.gates.print = { state := .off, latch := false, mask := 0 } ∧
    State.reset.gates.scan = { state := .off, latch := false, mask := 0 } ∧
    State.reset.gates.timer = none ∧ State.reset.gates.tamper = false ∧
    State.reset.gates.tamperRun = 0 ∧ State.reset.gates.deadline = .disarmed ∧
    State.reset.gates.deadlineAt = 0 ∧ State.reset.transaction = none ∧
    (∀ p, State.reset.port p =
      { owner := .nobody, deselect := 0, available := true, holdoff := none, select := false,
        tracked := .three, upstream := false }) ∧
    State.reset.power = { state := .active, fpwr := true, settle := none } ∧ State.reset.time = 0

/-- RESET takes every block to its reset values whatever it interrupts, and of all the part holds only the
fuses carry over, with the level of each upstream chip select; a bit whose program step the reset cuts
reads either way (R55, R24, R39). The queue and the counter of free values are the model's own. -/
def Obligations.ResetKeepsTheFusesAlone : Prop :=
  ∀ s : State, ∃ f n,
    exec .reset s =
        .next { State.reset with
                  pending := s.pending, fuses := f, drawn := n
                  port0 := PortState.afterReset s.port0.upstream
                  port1 := PortState.afterReset s.port1.upstream } ∧
      (s.advance = [] → f = s.fuses) ∧
      ∀ target rest, s.advance = target :: rest → f = s.fuses ∨ f = s.fuses.blow target

/-- The end of reset runs the key store check in the same event: a provisioned slot with a wrong check
value halts the part with no record and no read; sound slots of which none is usable push NO_KEY and enter
RECOVERY; otherwise the identity of port 0 is read first (R57, R26, R58). That the check is made in the
event of RESET_END is the model's choice (assumption log 18), as are the identity read's start address,
address lanes and dummy clocks, which its command has no use for (assumption log 42). -/
def Obligations.KeyStoreCheckDecides : Prop :=
  ∀ s : State, s.lines.rst = true → s.control.phase = .hold → s.advance = [] →
    let sound := fun i => (s.fuses.slot i).provisioned = true →
      crc32 (s.fuses.slot i).key = (s.fuses.slot i).check
    let usable := fun i => (s.fuses.slot i).provisioned = true ∧ s.fuses.revoked.getLsbD i = false
    ((∃ i, i < 4 ∧ ¬ sound i) →
      ∃ t, exec .resetEnd s = .next t ∧ t.control.phase = .halted ∧ t.control.step = .done ∧
        t.faults = s.faults ∧ t.engine.read = none ∧ t.lines.crst = true ∧ t.lines.rst = false ∧
        t.alert.asserted = true ∧
        t = { s with
          control := t.control, transaction := none, port0 := t.port0, port1 := t.port1, pool := t.pool
          engine := t.engine, gates := t.gates, alert := t.alert, lines := t.lines }) ∧
    ((∀ i, i < 4 → sound i) → (∀ i, i < 4 → ¬ usable i) →
      ∃ t, exec .resetEnd s = .next t ∧ t.control.phase = .recovery ∧ t.control.step = .done ∧
        t.faults = pushRecord s.faults
          { kind := .noKey, timestamp := s.time, phase := .hold, region := none, segment := none,
            address := none, detail := 0 } ∧
        t.engine.read = none ∧ t.lines.crst = false ∧ t.lines.rst = false ∧
        t = { s with
          control := t.control, classTable := [], settings := t.settings, regions := [], segments := []
          pool := t.pool, port0 := t.port0, port1 := t.port1, engine := t.engine, gates := t.gates
          faults := t.faults, alert := t.alert, lines := t.lines }) ∧
    ((∀ i, i < 4 → sound i) → (∃ i, i < 4 ∧ usable i) →
      exec .resetEnd s = .next { s with
        lines := { s.lines with rst := false }
        control := { s.control with step := .identities }
        port0 := { s.port0 with owner := .fetch, select := true }
        engine := { s.engine with
          job := .manifest
          read := some { port := .p0, kind := .identity, start := 0, command := 0x9F, commandLanes := .one,
                         sent := [], addressLanes := .one, dataLanes := .one, dummy := 0, count := 3 } } })

/-- The end of an identity read makes its three bytes the port's pending identity and frees the port; the
read of port 1 follows that of port 0, and after port 1 the step is HEADERS with the primary header's read
of 128 bytes begun at its anchor base (R58). The identity read's start address, address lanes and dummy
clocks are the model's choice (assumption log 42). -/
def Obligations.IdentityReadEndHoldsTheIdentity : Prop :=
  ∀ (b0 b1 b2 : Byte) (s : State) (r : FetchRead), s.engine.read = some r → r.kind = .identity →
    (r.port = .p0 →
      exec (.identityReadEnd b0 b1 b2) s = .next { s with
        control := { s.control with pending0 := some ⟨b0, b1, b2⟩ }
        port0 := { s.port0 with owner := .nobody, select := false }
        port1 := { s.port1 with owner := .fetch, select := true }
        engine := { s.engine with
          job := .manifest
          read := some { port := .p1, kind := .identity, start := 0, command := 0x9F, commandLanes := .one,
                         sent := [], addressLanes := .one, dataLanes := .one, dummy := 0, count := 3 } } }) ∧
    (r.port = .p1 →
      exec (.identityReadEnd b0 b1 b2) s = .next { s with
        control := { s.control with pending1 := some ⟨b0, b1, b2⟩, step := .headers }
        port0 := { s.port0 with owner := .fetch, select := true }
        port1 := { s.port1 with owner := .nobody, select := false }
        engine := { s.engine with
          job := .manifest
          read := some (s.fuses.dataRead .p0 (.header .primary) (s.fuses.primaryBase.toNat * 131072)
            128) } })

/-- The end of the primary header's read judges its magic: with 56474D31h the header joins the candidate
list with its sequence number, without it one MANIFEST_REJECTED record of reason NO_MAGIC is pushed; the
fallback header's read of 128 bytes begins (R59). -/
def Obligations.PrimaryHeaderIsJudgedByItsMagic : Prop :=
  ∀ (bytes : List Byte) (s : State) (r : FetchRead), bytes.length = 128 →
    s.engine.read = some r → r.kind = .header .primary → r.port = .p0 → s.control.phase = .hold →
    let magic := field bytes 0 4 = 0x56474D31
    let t : State := { s with
      port0 := { s.port0 with owner := .fetch, select := true }
      engine := { s.engine with
        job := .manifest
        read := some (s.fuses.dataRead .p0 (.header .fallback) (s.fuses.fallbackBase.toNat * 131072)
          128) } }
    (magic →
      exec (.headerReadEnd bytes) s = .next { t with
        control := { s.control with
          candidates := s.control.candidates ++
            [{ anchor := .primary, header := bytes, sequence := field bytes 8 4, copy := none }] } }) ∧
    (¬ magic →
      exec (.headerReadEnd bytes) s = .next { t with
        faults := pushRecord s.faults
          { kind := .manifestRejected, timestamp := s.time, phase := .hold, region := none,
            segment := none, address := none, detail := 0x00 }
        alert := s.alert.push s.settings.alertMode s.time })

/-- The end of the fallback header's read, with at most the primary held as a candidate: a header without
the magic is rejected with NO_MAGIC, the others are listed highest sequence number first, the primary
first on a tie (R59, R60), and where each of them fails the checks made on a header alone, or none is
listed, each pushes its MANIFEST_REJECTED record in that order, then NO_MANIFEST, and the part enters
RECOVERY with the controller released, both ports' owner and availability set afresh from the chip
selects, every table empty and the stored differences at 0 (R61, R63, R64, R66, R67, R21, R31). -/
def Obligations.NoManifestLeadsToRecovery : Prop :=
  ∀ (bytes : List Byte) (s : State) (r : FetchRead) (reasons : List RejectReason), bytes.length = 128 →
    s.engine.read = some r → r.kind = .header .fallback → s.control.phase = .hold →
    s.control.candidates.length ≤ 1 →
    let q : Candidate := { anchor := .fallback, header := bytes, sequence := field bytes 8 4, copy := none }
    let listed := if field bytes 0 4 = 0x56474D31 then
        (match s.control.candidates with
          | [p] => if p.sequence < q.sequence then [q, p] else [p, q]
          | _ => [q])
      else s.control.candidates
    let record := fun (k : FaultKind) (detail : Byte) =>
      (⟨k, s.time, .hold, none, none, none, detail⟩ : FaultRecord)
    let first := if field bytes 0 4 = 0x56474D31 then s.faults
      else pushRecord s.faults (record .manifestRejected 0x40)
    let released := fun (p : PortState) => ({ p with
      owner := if p.upstream then .passThrough else .nobody, available := !p.upstream
      holdoff := none, select := false } : PortState)
    listed.map (fun c => headerReject s.fuses c.header) = reasons.map some →
    ∃ t, exec (.headerReadEnd bytes) s = .next t ∧ t.control.phase = .recovery ∧
      t.control.step = .done ∧ t.control.candidates = [] ∧ t.control.pending0 = none ∧
      t.control.pending1 = none ∧ t.control.context = none ∧ t.control.manifest = none ∧
      t.control.differences = [0, 0, 0, 0, 0, 0, 0, 0] ∧
      t.control.bootConfirmed = s.control.bootConfirmed ∧
      t.faults = pushRecord ((listed.zip reasons).foldl (fun f e => pushRecord f
        (record .manifestRejected (rejectDetail e.1.anchor e.2 0))) first) (record .noManifest 0) ∧
      t.alert.asserted = true ∧ t.port0 = released s.port0 ∧ t.port1 = released s.port1 ∧
      t.regions = [] ∧ t.segments = [] ∧ t.classTable = [] ∧ t.settings = Settings.afterReset ∧
      t.pool = Pool.afterReset ∧ t.engine.job = .idle ∧ t.engine.read = none ∧
      t.gates.print.mask = 0 ∧ t.gates.scan.mask = 0 ∧ t.gates.deadline = .disarmed ∧
      t.lines.crst = false ∧
      t = { s with
        control := t.control, classTable := [], settings := t.settings, regions := [], segments := []
        pool := t.pool, port0 := t.port0, port1 := t.port1, engine := t.engine, gates := t.gates
        faults := t.faults, alert := t.alert, lines := t.lines }

/-- The end of the fallback header's read, with at most the primary held as a candidate: a header without
the magic is rejected with NO_MAGIC (R59), the others are listed highest sequence number first, the
primary first on a tie (R60), and the first of them that passes the checks made on a header alone has its
body read, from offset 128 through its signature (R61, R62). Each listed before it has pushed one
MANIFEST_REJECTED record with its own reason and class 0 (R64), and those after it stay listed. -/
def Obligations.HigherSequenceIsReadFirst : Prop :=
  ∀ (bytes : List Byte) (s : State) (r : FetchRead) (rejected rest : List Candidate) (c : Candidate)
    (reasons : List RejectReason), bytes.length = 128 → s.engine.read = some r →
    r.kind = .header .fallback → r.port = .p0 → s.control.phase = .hold →
    s.control.candidates.length ≤ 1 →
    let q : Candidate := { anchor := .fallback, header := bytes, sequence := field bytes 8 4, copy := none }
    let listed := if field bytes 0 4 = 0x56474D31 then
        (match s.control.candidates with
          | [p] => if p.sequence < q.sequence then [q, p] else [p, q]
          | _ => [q])
      else s.control.candidates
    let record := fun (k : FaultKind) (detail : Byte) =>
      (⟨k, s.time, .hold, none, none, none, detail⟩ : FaultRecord)
    let first := if field bytes 0 4 = 0x56474D31 then s.faults
      else pushRecord s.faults (record .manifestRejected 0x40)
    let mode := s.settings.alertMode
    listed = rejected ++ c :: rest →
    rejected.map (fun x => headerReject s.fuses x.header) = reasons.map some →
    headerReject s.fuses c.header = none →
    exec (.headerReadEnd bytes) s = .next { s with
      control := { s.control with step := .evaluate, candidates := c :: rest }
      faults := (rejected.zip reasons).foldl (fun f e => pushRecord f
        (record .manifestRejected (rejectDetail e.1.anchor e.2 0))) first
      alert := rejected.foldl (fun a _ => a.push mode s.time)
        (if field bytes 0 4 = 0x56474D31 then s.alert else s.alert.push mode s.time)
      port0 := { s.port0 with owner := .fetch, select := true }
      engine := { s.engine with
        job := .manifest
        read := some (s.fuses.dataRead .p0 .body (s.fuses.anchorBase c.anchor * 131072 + 128)
          (field c.header 32 4 - 64)) } }

/-- What the bytes of a manifest say, at their offsets (12.1). On a header with the right magic the checks
are made in order, and the first that fails gives the reason: format, size, key slot absent, key slot
revoked (R51, R52, R27). The structure check passes exactly when every condition of R53 and R54 holds, said
here of the bytes and segment by segment. The settings are those carried, with holdoff, patrol interval,
codes and trigger flags clamped (R47). The signature is judged under the named slot's key on the digest of
the body, with the 64 bytes after the body as r and s (R50). Of a manifest that passes the structure check,
region i and class entry i hold the fields of record i (R44, R45). Digest k is the 32 bytes at offset 32 k
of the list; the digest at the sum of the segment counts of the regions before region i, plus p, belongs to
segment first + p of region i, which is UNSEEN (R49, R79). The statements on acceptance and rejection rest
on this one for what `structureGood`, `readCopy` and `buildSegments` are. The parity's function is a free
value (assumption log 5). -/
def Obligations.ManifestIsReadAndCheckedByItsBytes : Prop :=
  ∀ (f : Fuses) (h rest : List Byte),
    let n := field h 22 1
    let m := field h 23 1
    let digests := field h 24 2
    let good := field h 4 1 = 1 ∧ field h 5 1 ≤ 3 ∧ (∀ c, c < 8 → field h (12 + c) 1 ≤ 63) ∧
      field h 32 4 = 128 + 32 * n + 8 * m + 64 + 32 * digests
    let small := field h 32 4 ≤ 131008
    let provisioned := (f.slot (field h 5 1)).provisioned = true
    let revoked := f.revoked.getLsbD (field h 5 1) = true
    let body := (h ++ rest).take (field h 32 4)
    let copy := readCopy h rest
    let region := fun (i offset width : Nat) => field body (128 + 32 * i + offset) width
    let entry := fun (i offset : Nat) => field body (128 + 32 * n + 8 * i + offset) 1
    let setting := fun (offset width : Nat) => field body (128 + 32 * n + 8 * m + offset) width
    let port := fun (i : Nat) => region i 0 1
    let covers := fun (i x : Nat) => region i 2 2 ≤ x ∧ x < region i 2 2 + region i 4 2
    let size := fun (p : Nat) => if p = 0 then field h 20 1 else field h 21 1
    let laneCount := fun (l : Nat) => l = 1 ∨ l = 2 ∨ l = 4
    let lanes := fun (l : Lanes) => match l with | .one => 1 | .two => 2 | .four => 4
    (headerReject f h = some .badFormat ↔ ¬ good) ∧
    (headerReject f h = some .tooLarge ↔ good ∧ ¬ small) ∧
    (headerReject f h = some .keyAbsent ↔ good ∧ small ∧ ¬ provisioned) ∧
    (headerReject f h = some .keyRevoked ↔ good ∧ small ∧ provisioned ∧ revoked) ∧
    (headerReject f h = none ↔ good ∧ small ∧ provisioned ∧ ¬ revoked) ∧
    (structureGood f h copy = true ↔
      (1 ≤ n ∧ n ≤ 16) ∧ port 0 = 0 ∧
      (∀ i, i < n → port i ≤ 1 ∧ region i 1 1 ≤ 7 ∧ region i 2 2 ≤ 1023 ∧
        (1 ≤ region i 4 2 ∧ region i 4 2 ≤ 1024) ∧ region i 6 1 ≤ 2 ∧ region i 7 1 ≤ 1 ∧
        region i 8 1 ≤ 1 ∧ ∀ j, 9 ≤ j → j < 32 → region i j 1 = 0) ∧
      (∀ i, i < n → (1 ≤ size (port i) ∧ size (port i) ≤ 6) ∧
        region i 2 2 + region i 4 2 ≤ 2 ^ (size (port i) - 1) * 32) ∧
      (∀ i j x, i < n → j < n → i ≠ j → port i = port j → ¬ (covers i x ∧ covers j x)) ∧
      (∀ i x, i < n → port i = 0 → covers i x →
        ¬ (4 * f.primaryBase.toNat ≤ x ∧ x < 4 * f.primaryBase.toNat + 4) ∧
        ¬ (4 * f.fallbackBase.toNat ≤ x ∧ x < 4 * f.fallbackBase.toNat + 4) ∧
        ¬ (f.recoveryBase.toNat ≤ x ∧ x < f.recoveryBase.toNat + f.recoveryCount.toNat)) ∧
      (digests = ((List.range n).map (fun i => region i 4 2)).sum ∧ digests ≤ 2048) ∧
      (1 ≤ size 0 ∧ size 0 ≤ 6 ∧ size 1 ≤ 6) ∧ m ≤ 32 ∧
      (∀ i, i < m → entry i 0 ≠ 0x4E ∧ entry i 1 ≤ 6 ∧
        (entry i 2 = 0 ∨ entry i 2 = 3 ∨ entry i 2 = 4 ∨ entry i 2 = 5) ∧
        laneCount (entry i 3) ∧ laneCount (entry i 4) ∧ entry i 5 ≤ 15 ∧
        (entry i 1 = 2 → entry i 6 ≤ 3)) ∧
      (∀ i j, i < m → j < m → i ≠ j → entry i 0 ≠ entry j 0) ∧
      (field h 6 1 < 16 ∧ (field h 6 1).testBit (field h 5 1) = false) ∧
      (∀ i, (field h 26 2).testBit i = true → i < n) ∧
      (∀ i, (field h 28 2).testBit i = true → i < n ∧ (field h 26 2).testBit i = true) ∧
      (field h 26 2).testBit 0 = true ∧ (field h 28 2).testBit 0 = true) ∧
    copy.settings =
      { deadline := setting 0 2, interval := setting 6 1
        holdoff := if 1023 < setting 2 2 then 1023 else setting 2 2
        patrol := if 0 < setting 4 2 ∧ setting 4 2 < 10 then 10 else setting 4 2
        alertMode := if setting 7 1 = 0 then .level else .pulse
        printSet := BitVec.ofNat 4 (setting 8 1), scanSet := BitVec.ofNat 4 (setting 9 1)
        unlisted := if setting 10 1 = 0 then .pass else .block } ∧
    copy.digests = (List.range digests).map (fun k => BitVec.ofNat 256
      (beNat ((body.drop (128 + 32 * n + 8 * m + 64 + 32 * k)).take 32))) ∧
    copy.bodyDigest = sha256 body ∧
    candidateSigned f h rest copy = signatureGood (f.slot (field h 5 1)).key (sha256 body)
      (beNat (((h ++ rest).drop (field h 32 4)).take 32))
      (beNat (((h ++ rest).drop (field h 32 4 + 32)).take 32)) ∧
    (structureGood f h copy = true →
      copy.regions.length = n ∧ copy.classes.length = m ∧
      (∀ i, i < n → ∃ r, (copy.regions.map RawRegion.toRegion)[i]? = some r ∧
        portNumber r.port = port i ∧ r.imageClass = region i 1 1 ∧ r.first = region i 2 2 ∧
        r.count = region i 4 2 ∧
        (match r.write with | .deny => 0 | .denyTrip => 1 | .allowMark => 2) = region i 6 1 ∧
        (match r.read with | .pass => 0 | .blank => 1) = region i 7 1 ∧
        (if r.patrol then 1 else 0) = region i 8 1 ∧ r.touched = false) ∧
      (∀ i, i < m → ∃ e, (copy.classes.map RawClass.toEntry)[i]? = some e ∧
        e.command.toNat = entry i 0 ∧
        (match e.cls with
          | .read => 0 | .program => 1 | .erase => 2 | .mode4 => 3 | .mode3 => 4 | .pass => 5
          | .block => 6) = entry i 1 ∧
        (match e.address with | .zero => 0 | .three => 3 | .four => 4 | .track => 5) = entry i 2 ∧
        lanes e.addressLanes = entry i 3 ∧ lanes e.dataLanes = entry i 4 ∧ e.dummy = entry i 5 ∧
        (e.cls = .erase →
          (match e.extent with | .kib4 => 0 | .kib32 => 1 | .kib64 => 2 | .whole => 3) = entry i 6))) ∧
    (∀ (regions : List Region) (ds : List Digest), ds.length = (regions.map (·.count)).sum →
      (buildSegments regions ds).length = ds.length ∧
      ∀ i r p d, regions[i]? = some r → p < r.count →
        ds[((regions.take i).map (·.count)).sum + p]? = some d →
        (buildSegments regions ds)[((regions.take i).map (·.count)).sum + p]? = some
          { seg := portNumber r.port * 1024 + r.first + p, digest := d, state := .unseen, region := i,
            parity := Config.segParity d i })

/-- Acceptance: the end of the body read of a candidate whose signature, rollback compare and structure
pass commits its tables, every segment UNSEEN with the parity of its digest and region, its settings, with
the alert line following a change of its mode, and its masks; it fills the verification context, arms the
deadline, releases the controller with both ports' owner and availability set afresh from the chip
selects, leaves the engine IDLE and makes the phase RUN, in one event; no gate has risen (R65, R41, R79,
R155, R169, R21, R67). The engine then judges in that event and may begin its first read (R121). The
parity's function is a free value (assumption log 5), and the phase RUN of the TAMPER record is R155's where
R160 would have HOLD (assumption log 38). That the deadline's expiry time stays as it was at a deadline of
0 is the model's choice (assumption log 41), as is the erase extent that a committed class entry other than
ERASE holds where its byte is no defined code (assumption log 44).
What the body's bytes are read and checked as is said by ManifestIsReadAndCheckedByItsBytes. -/
def Obligations.AcceptanceCommitsTheManifest : Prop :=
  ∀ (bytes : List Byte) (s : State) (r : FetchRead) (c : Candidate) (rest : List Candidate)
    (copy : CandidateCopy) (d : List Int), s.engine.read = some r → r.kind = .body →
    s.control.candidates = c :: rest → 128 ≤ bytes.length →
    bytes.length + 64 = headerBodyLength c.header → bytes.length ≤ 130944 →
    copy = readCopy c.header bytes → d = s.fuses.differences (headerVersions c.header) →
    candidateSigned s.fuses c.header bytes copy = true → (∀ x ∈ d, 0 ≤ x) →
    structureGood s.fuses c.header copy = true →
    s.gates.print.state = .off → s.gates.scan.state = .off →
    let mode := copy.settings.alertMode
    let changed : Alert := if s.settings.alertMode = mode then s.alert
      else if mode = .level then { asserted := decide (s.faults ≠ []), pendingPulses := 0, timing := .idle }
      else if s.faults = [] then { s.alert with asserted := false }
      else { asserted := false, pendingPulses := 1, timing := .gap s.time }
    let released := fun (p : PortState) => ({ p with
      owner := if p.upstream then .passThrough else .nobody, available := !p.upstream
      holdoff := none, select := false } : PortState)
    ∃ u t : State, exec (.bodyReadEnd bytes) s = .next t ∧ t = u.judge ∧
      u.control.phase = .run ∧ u.control.step = .done ∧
      u.control.candidates = [] ∧ u.control.pending0 = none ∧ u.control.pending1 = none ∧
      u.control.differences = d ∧ u.control.bootConfirmed = s.control.bootConfirmed ∧
      u.control.manifest = some
        { versions := headerVersions c.header, revoke := (headerRevoke c.header).setWidth 4,
          size0 := headerSize0 c.header, size1 := headerSize1 c.header } ∧
      (∃ v, u.control.context = some v ∧ v.anchor = c.anchor ∧ v.sequence = c.sequence ∧
        v.slot = headerSlot c.header ∧ v.digest = copy.bodyDigest ∧
        (∀ x, s.control.pending0 = some x → v.identity0 = x) ∧
        (∀ x, s.control.pending1 = some x → v.identity1 = x)) ∧
      u.regions = copy.regions.map RawRegion.toRegion ∧
      u.classTable = copy.classes.map RawClass.toEntry ∧ u.settings = copy.settings ∧
      u.segments = buildSegments u.regions copy.digests ∧
      (∀ e ∈ u.segments, e.state = .unseen ∧ e.parity = Config.segParity e.digest e.region) ∧
      u.gates.print = { state := .off, mask := headerPrintMask c.header
                        latch := s.gates.print.latch || (s.gates.tamper && copy.settings.printSet.getLsbD 1) } ∧
      u.gates.scan = { state := .off, mask := headerScanMask c.header
                       latch := s.gates.scan.latch || (s.gates.tamper && copy.settings.scanSet.getLsbD 1) } ∧
      u.gates.deadline = (if 0 < copy.settings.deadline then .armed else .disarmed) ∧
      u.gates.deadlineAt = (if 0 < copy.settings.deadline then
        s.time + BitVec.ofNat 32 (1000 * copy.settings.deadline) else s.gates.deadlineAt) ∧
      u.faults = (if s.gates.tamper then pushRecord s.faults ⟨.tamper, s.time, .run, none, none, none, 1⟩
        else s.faults) ∧
      u.alert = (if s.gates.tamper then changed.push mode s.time else changed) ∧
      u.lines = { s.lines with crst := false, scnen := false } ∧
      u.engine = { s.engine with job := .idle, read := none } ∧
      u.port0 = released s.port0 ∧ u.port1 = released s.port1 ∧
      u = { s with
        control := u.control, classTable := u.classTable, settings := u.settings, regions := u.regions
        segments := u.segments, port0 := u.port0, port1 := u.port1, engine := u.engine
        gates := { s.gates with
          print := u.gates.print, scan := u.gates.scan
          deadline := u.gates.deadline, deadlineAt := u.gates.deadlineAt }
        faults := u.faults, alert := u.alert, lines := u.lines } ∧
      t = { u with
        segments := t.segments, pool := t.pool, port0 := t.port0, port1 := t.port1, engine := t.engine } ∧
      ∀ e ∈ t.segments, e.state = .unseen ∨ e.state = .hashing

/-- The body read of the first candidate ends and it fails the first of signature, rollback compare and
structure: one MANIFEST_REJECTED record with that reason, carrying the lowest class below its floor for
ROLLBACK alone (R63, R64, R30). The candidates after it are then evaluated in list order: each whose
header fails a check made on a header alone pushes its own record, and the first that passes has its body
read (R61, R62); with none left NO_MANIFEST is pushed and the part enters RECOVERY with the controller
released, both ports' owner and availability set afresh, every table empty and the stored differences at 0
(R63, R66, R67, R21, R31).
What the body's bytes are read and checked as is said by ManifestIsReadAndCheckedByItsBytes. -/
def Obligations.LastRejectionEndsInRecovery : Prop :=
  ∀ (bytes : List Byte) (s : State) (r : FetchRead) (c : Candidate) (rest : List Candidate)
    (copy : CandidateCopy) (d : List Int) (x : Byte) (reasons : List RejectReason),
    s.engine.read = some r → r.kind = .body → s.control.phase = .hold →
    s.control.candidates = c :: rest → 128 ≤ bytes.length →
    bytes.length + 64 = headerBodyLength c.header → bytes.length ≤ 130944 →
    copy = readCopy c.header bytes → d = s.fuses.differences (headerVersions c.header) →
    (candidateSigned s.fuses c.header bytes copy = false ∧ x = rejectDetail c.anchor .signature 0) ∨
      (candidateSigned s.fuses c.header bytes copy = true ∧
        ∃ k, k < 8 ∧ d.getD k 0 < 0 ∧ (∀ j, j < k → 0 ≤ d.getD j 0) ∧
          x = rejectDetail c.anchor .rollback k) ∨
      (candidateSigned s.fuses c.header bytes copy = true ∧ (∀ y ∈ d, 0 ≤ y) ∧
        structureGood s.fuses c.header copy = false ∧ x = rejectDetail c.anchor .structural 0) →
    let mode := s.settings.alertMode
    let record := fun (k : FaultKind) (detail : Byte) =>
      (⟨k, s.time, .hold, none, none, none, detail⟩ : FaultRecord)
    let pushed := fun (l : List Candidate) => (l.zip reasons).foldl (fun f e => pushRecord f
      (record .manifestRejected (rejectDetail e.1.anchor e.2 0)))
      (pushRecord s.faults (record .manifestRejected x))
    let released := fun (p : PortState) => ({ p with
      owner := if p.upstream then .passThrough else .nobody, available := !p.upstream
      holdoff := none, select := false } : PortState)
    (∀ rejected next after, rest = rejected ++ next :: after → r.port = .p0 →
      rejected.map (fun y => headerReject s.fuses y.header) = reasons.map some →
      headerReject s.fuses next.header = none →
      exec (.bodyReadEnd bytes) s = .next { s with
        control := { s.control with candidates := next :: after }
        faults := pushed rejected
        alert := rejected.foldl (fun a _ => a.push mode s.time) (s.alert.push mode s.time)
        port0 := { s.port0 with owner := .fetch, select := true }
        engine := { s.engine with
          job := .manifest
          read := some (s.fuses.dataRead .p0 .body (s.fuses.anchorBase next.anchor * 131072 + 128)
            (field next.header 32 4 - 64)) } }) ∧
    (rest.map (fun y => headerReject s.fuses y.header) = reasons.map some →
      ∃ t, exec (.bodyReadEnd bytes) s = .next t ∧ t.control.phase = .recovery ∧
        t.control.step = .done ∧ t.control.candidates = [] ∧ t.control.context = none ∧
        t.control.pending0 = none ∧ t.control.pending1 = none ∧ t.control.manifest = none ∧
        t.control.differences = [0, 0, 0, 0, 0, 0, 0, 0] ∧
        t.control.bootConfirmed = s.control.bootConfirmed ∧
        t.faults = pushRecord (pushed rest) (record .noManifest 0) ∧ t.alert.asserted = true ∧
        t.port0 = released s.port0 ∧ t.port1 = released s.port1 ∧
        t.regions = [] ∧ t.segments = [] ∧ t.classTable = [] ∧ t.settings = Settings.afterReset ∧
        t.pool = Pool.afterReset ∧ t.engine.job = .idle ∧ t.engine.read = none ∧
        t.gates.print.mask = 0 ∧ t.gates.scan.mask = 0 ∧ t.gates.deadline = .disarmed ∧
        t.lines.crst = false ∧
        t = { s with
          control := t.control, classTable := [], settings := t.settings, regions := [], segments := []
          pool := t.pool, port0 := t.port0, port1 := t.port1, engine := t.engine, gates := t.gates
          faults := t.faults, alert := t.alert, lines := t.lines })

/-! ## The upstream port and the flash traffic (chapter 1) -/

/-- An assertion while the part takes traffic, outside DOZE and with no FILL or PATROL read on the port
(of one on it, the statement AssertAbortsTheReadOnItsPort speaks): the port goes to PASS_THROUGH (a wake
read keeps it) and becomes unavailable; the assertion opens a transaction with a fresh decode record,
unless the other chip select is asserted, when it is disregarded (R1, R3, R21). That the engine judges at
an assertion which aborts no read is beyond R121's list and the model's reading (assumption log 24); the
current address of 0 is its choice (assumption log 33). -/
def Obligations.AssertOpensUnlessTheOtherIsAsserted : Prop :=
  ∀ (p : Port) (s : State), s.control.phase = .run ∨ s.control.phase = .recovery →
    (s.port p).upstream = false → s.power.state ≠ .doze →
    (∀ r i, s.engine.read = some r → r.port = p → r.kind ≠ .fill i ∧ r.kind ≠ .patrol i) →
    exec (.upstreamCsAssert p) s = .next (State.judge { s.setPort p { s.port p with
        upstream := true, available := false, holdoff := none
        owner := if (s.port p).owner = .fetch then .fetch else .passThrough } with
      transaction := if (s.port (otherPort p)).upstream then s.transaction else some
        { port := p, waking := decide (s.power.state = .waking), phase := s.control.phase,
          stage := .command, command := none, entry := none, addressLength := 0,
          disposition := .pending, start := none, current := 0, received := [], relayed := []
          channel := .awaiting } })

/-- In DOZE the assertion starts WAKING with FPWR asserted and the settle timer started, and opens a
WAKING transaction (R187, R3), also while the other chip select is held asserted since before DOZE
(assumption log 14); a rising edge on WAKE does the first alone, and in any other power state, and in HOLD
and HALTED, nothing (R187). The record's current address of 0 is the model's choice (assumption log 33).
-/
def Obligations.AssertOrWakeEdgeEndsDoze : Prop :=
  ∀ (p : Port) (s : State),
    (s.control.phase = .run ∨ s.control.phase = .recovery →
      (s.power.state = .doze → s.engine.read = none → (s.port p).upstream = false →
        (s.port p).owner = .nobody →
        exec (.upstreamCsAssert p) s = .next { s.setPort p { s.port p with
            upstream := true, available := false, holdoff := none, owner := .passThrough } with
          power := { state := .waking, fpwr := true, settle := some s.time }
          transaction := some
            { port := p, waking := true, phase := s.control.phase, stage := .command, command := none,
              entry := none, addressLength := 0, disposition := .pending, start := none, current := 0,
              received := [], relayed := [], channel := .awaiting } }) ∧
      (s.power.state = .doze →
        exec .wakeEdge s = .next { s with
          power := { state := .waking, fpwr := true, settle := some s.time } })) ∧
    (s.power.state ≠ .doze ∨ s.control.phase = .hold ∨ s.control.phase = .halted →
      exec .wakeEdge s = .next s)

/-- An assertion on the port of a fill or patrol read aborts the read: its context stays live at its fill
with source NONE, the job is IDLE with no current read, the port's downstream chip select falls and its
owner becomes PASS_THROUGH, in the event that opens the transaction, or in that of an assertion
disregarded because the other chip select is asserted, which leaves the open transaction as it was (R1,
R21, R22, R107, R129). The record's current address of 0 is the model's choice (assumption log 33). -/
def Obligations.AssertAbortsTheReadOnItsPort : Prop :=
  ∀ (p : Port) (s : State) (r : FetchRead) (i : Nat) (c : Context), s.control.phase = .run →
    s.power.state = .active → (s.port p).upstream = false →
    s.engine.read = some r → r.port = p → r.kind = .fill i ∨ r.kind = .patrol i →
    s.pool.context i = some c →
    exec (.upstreamCsAssert p) s = .next (State.judge { s.setPort p { s.port p with
        upstream := true, available := false, holdoff := none, owner := .passThrough, select := false } with
      pool := { s.pool with slots := s.pool.slots.set i (some { c with source := .nothing }) }
      engine := { s.engine with job := .idle, read := none }
      transaction := if (s.port (otherPort p)).upstream then s.transaction else some
        { port := p, waking := false, phase := .run, stage := .command, command := none, entry := none,
          addressLength := 0, disposition := .pending, start := none, current := 0,
          received := [], relayed := [], channel := .awaiting } })

/-- In HOLD and HALTED upstream traffic is ignored, and with no transaction open no byte of one changes
anything (R3, R74). That a chip select changes the level of its line alone there, with no deselect time
recorded at a deassertion, is the model's reading (assumption log 12). -/
def Obligations.HeldTrafficIsIgnored : Prop :=
  ∀ (p : Port) (b : Byte) (bytes : List Byte) (s : State),
    s.control.phase = .hold ∨ s.control.phase = .halted → s.transaction = none →
    bytes.length = 3 ∨ bytes.length = 4 →
    exec (.upstreamCsAssert p) s = .next (s.setPort p { s.port p with upstream := true }) ∧
      exec (.upstreamCsDeassert p) s = .next (s.setPort p { s.port p with upstream := false }) ∧
      exec (.commandByte b) s = .next s ∧ exec (.addressComplete bytes) s = .next s ∧
      exec (.readDataByte b) s = .next s ∧ exec .fetch s = .next s

/-- The escape byte 4Eh makes the transaction a REQUEST, whatever table is in force and on either port:
nothing is relayed and no downstream chip select is asserted (R4). That its stage is DATA is the model's
choice (assumption log 32). -/
def Obligations.EscapeByteOpensARequest : Prop :=
  ∀ (s : State) (tr : Transaction), s.transaction = some tr → tr.stage = .command →
    exec (.commandByte 0x4E) s = .next { s with
      transaction := some { tr with
        command := some 0x4E, received := [0x4E], disposition := .request, stage := .data } }

/-- A listed READ, PASS, MODE4 or MODE3 outside WAKING is forwarded at once: its port's downstream chip
select is asserted, the command byte runs on its lanes, and the transaction follows its entry, TRACK taking
the port's tracked mode (R5, R9, R18). -/
def Obligations.ListedCommandsAreForwarded : Prop :=
  ∀ (b : Byte) (s : State) (tr : Transaction) (e : ClassEntry), s.transaction = some tr →
    tr.stage = .command → tr.waking = false → b ≠ 0x4E →
    (if s.control.phase = .run then s.classTable else if s.control.phase = .recovery then builtInTable
      else []).find? (fun x => x.command == b) = some e →
    e.cls = .read ∨ e.cls = .pass ∨ e.cls = .mode4 ∨ e.cls = .mode3 →
    let n := match e.address with
      | .zero => 0
      | .three => 3
      | .four => 4
      | .track => if (s.port tr.port).tracked = .four then 4 else 3
    exec (.commandByte b) s = .next { s.setPort tr.port { s.port tr.port with select := true } with
      transaction := some { tr with
        command := some b, entry := some e, addressLength := n, disposition := .forward
        received := [b], relayed := [b]
        stage := if n = 0 then (if e.dummy = 0 then .data else .dummy) else .address } }

/-- A BLOCK class command, or an unlisted one under unlisted action BLOCK in RUN, is not relayed: a
BLOCKED record holding the command byte is pushed, each gate whose trigger set holds BLOCKED is tripped,
and the gates move (R6, R13, R148). An unlisted command under PASS, or in RECOVERY, is forwarded without
framing (R6, R18). That the stage of an unlisted blocked command is DATA is the model's choice (assumption
log 32). -/
def Obligations.BlockedCommandsAreRecorded : Prop :=
  ∀ (b : Byte) (s : State) (tr : Transaction), s.transaction = some tr → tr.stage = .command →
    tr.waking = false → b ≠ 0x4E → s.control.phase = .run ∨ s.control.phase = .recovery →
    let blocked := fun (u : Transaction) => exec (.commandByte b) s = .next (State.settleGates { s with
      transaction := some { u with command := some b, received := [b], disposition := .block }
      faults := pushRecord s.faults ⟨.blocked, s.time, s.control.phase, none, none, none, b⟩
      alert := s.alert.push s.settings.alertMode s.time
      gates := { s.gates with
        print := { s.gates.print with latch := s.gates.print.latch || s.settings.printSet.getLsbD 2 }
        scan := { s.gates.scan with latch := s.gates.scan.latch || s.settings.scanSet.getLsbD 2 } } })
    (∀ e, s.lookup b = some e → e.cls = .block →
      let n := s.resolveLength tr.port e.address
      blocked { tr with
        entry := some e, addressLength := n
        stage := if n = 0 then (if e.dummy = 0 then .data else .dummy) else .address }) ∧
    (s.lookup b = none → s.control.phase = .run → s.settings.unlisted = .block →
      blocked { tr with stage := .data }) ∧
    (s.lookup b = none → s.control.phase = .recovery ∨ s.settings.unlisted = .pass →
      exec (.commandByte b) s = .next { s.setPort tr.port { s.port tr.port with select := true } with
        transaction := some { tr with
          command := some b, received := [b], relayed := [b], disposition := .forward, stage := .data } })

/-- A transaction decoded in WAKING is not relayed: a listed command is framed by its entry and an
unlisted one is not, and either is dropped with no fault and no change but to the decode record (R19);
that a READ has the disposition DROP too, and an unlisted command stage DATA, is the model's choice
(assumption log 31 and 32). Every whole data byte read in it, and in a blocked transaction, is FFh and is
counted: the dummy clocks are over and the current address of a command with an address moves on with the
wrap (R13, R19, R9, R11, R12); a byte read in the address stage is FFh too and changes nothing else
(assumption log 22). -/
def Obligations.WakingTransactionsAreDropped : Prop :=
  ∀ (b : Byte) (s : State) (tr : Transaction), s.transaction = some tr →
    (tr.stage = .command → tr.waking = true → b ≠ 0x4E →
      (s.lookup b = none → exec (.commandByte b) s = .next { s with
        transaction := some { tr with
          command := some b, received := [b], disposition := .drop, stage := .data } }) ∧
      (∀ e, s.lookup b = some e → exec (.commandByte b) s = .next { s with
        transaction := some { tr with
          command := some b, received := [b], entry := some e, disposition := .drop
          addressLength := s.resolveLength tr.port e.address
          stage := if s.resolveLength tr.port e.address = 0 then
            (if e.dummy = 0 then .data else .dummy) else .address } })) ∧
    (tr.disposition = .drop ∨ tr.disposition = .block →
      let size := s.portSize tr.port
      let space := if tr.addressLength = 3 then min (2 ^ 24) size else size
      (tr.stage = .dummy ∨ tr.stage = .data → exec (.readDataByte b) s = .next { s with
        delivered := some 0xFF
        transaction := some { tr with
          stage := .data
          current := if tr.addressLength = 0 then tr.current
            else if tr.current + 1 < space then tr.current + 1 else 0 } }) ∧
      (tr.stage = .address → exec (.readDataByte b) s = .next { s with delivered := some 0xFF }))

/-- The last address byte of a transaction that awaits no judgment records the start address: the bytes
most significant first, reduced to the port's address space, 16 MiB at most with three bytes (R9, R11).
The port size is 2^(k−1) MiB for the active manifest's size code k of the port, and 32 MiB where the port
is declared absent or no manifest is in force (R11, R43). The address bytes of a forwarded transaction run
downstream after its command byte (R18). -/
def Obligations.StartAddressIsReducedToThePort : Prop :=
  ∀ (bytes : List Byte) (s : State) (tr : Transaction) (e : ClassEntry), s.transaction = some tr →
    tr.stage = .address → bytes.length = tr.addressLength → bytes.length = 3 ∨ bytes.length = 4 →
    tr.entry = some e → tr.disposition ≠ .pending →
    let value := bytes.foldl (fun a x => 256 * a + x.toNat) 0
    let code := match s.control.manifest, tr.port with
      | none, _ => 0
      | some m, .p0 => m.size0
      | some m, .p1 => m.size1
    let size := if code = 0 then 32 * 2 ^ 20 else 2 ^ (code - 1) * 2 ^ 20
    let space := if bytes.length = 3 then min (2 ^ 24) size else size
    s.portSize tr.port = size ∧
    exec (.addressComplete bytes) s = .next { s with
      transaction := some { tr with
        start := some (value % space), current := value % space, received := tr.received ++ bytes
        relayed := if tr.disposition = .forward then bytes.reverse ++ tr.relayed else tr.relayed
        stage := if e.dummy = 0 then .data else .dummy } }

/-- The affected segments of a write (R15), on a port of segments of 32768 bytes: the start address's own
for a PROGRAM; every segment the erased range meets for an ERASE; every segment of the port for extent
WHOLE and for an entry without an address. -/
def Obligations.AffectedSegmentsAreThoseTheCommandReaches : Prop :=
  ∀ (s : State) (p : Port) (e : ClassEntry) (a g : Nat),
    let base := portNumber p * 1024
    ((s.affected p e none).holds g = true ↔ base ≤ g ∧ g < base + s.portSize p / 32768) ∧
    (e.cls = .program →
      ((s.affected p e (some a)).holds g = true ↔ g = base + a / 32768)) ∧
    (e.cls = .erase → e.extent = .whole →
      ((s.affected p e (some a)).holds g = true ↔ base ≤ g ∧ g < base + s.portSize p / 32768)) ∧
    (∀ size, e.cls = .erase → e.extent.bytes = some size →
      ((s.affected p e (some a)).holds g = true ↔
        ∃ x, a - a % size ≤ x ∧ x ≤ a - a % size + size - 1 ∧ g = base + x / 32768))

/-- A PROGRAM or ERASE outside WAKING is judged once: at its command byte where its entry has no address,
else it stays PENDING with nothing relayed until its last address byte (R14, R5). The judgment is that of
the two statements that follow. -/
def Obligations.WritesAreJudgedWhenTheirAddressIsKnown : Prop :=
  ∀ (b : Byte) (bytes : List Byte) (s : State) (tr : Transaction) (e : ClassEntry),
    s.transaction = some tr → e.cls = .program ∨ e.cls = .erase →
    (tr.stage = .command → tr.waking = false → b ≠ 0x4E → s.lookup b = some e →
      let n := s.resolveLength tr.port e.address
      (n = 0 → exec (.commandByte b) s = .next (s.judgeWrite { tr with
        command := some b, received := [b], entry := some e, addressLength := 0
        stage := if e.dummy = 0 then .data else .dummy } e b)) ∧
      (n ≠ 0 → exec (.commandByte b) s = .next { s with
        transaction := some { tr with
          command := some b, received := [b], entry := some e, addressLength := n, stage := .address
          disposition := .pending } })) ∧
    (tr.stage = .address → tr.disposition = .pending → tr.entry = some e → tr.command = some b →
      bytes.length = tr.addressLength → bytes.length = 3 ∨ bytes.length = 4 →
      let a := addressValue bytes % addressSpace tr.addressLength (s.portSize tr.port)
      exec (.addressComplete bytes) s = .next (s.judgeWrite { tr with
        start := some a, current := a, received := tr.received ++ bytes
        stage := if e.dummy = 0 then .data else .dummy } e b))

/-- A judged write with no blocking segment is forwarded whole: its downstream chip select is asserted and
the bytes received until then are replayed downstream in their order (R18). In RUN its ALLOW_MARK segments that are
UNSEEN, HASHING or VERIFIED become DIRTY, their contexts are discarded and they leave the gap queue, and
then the gates move and the engine judges; in RECOVERY nothing is reported (R16, R18, R87, R88, R114). -/
def Obligations.UnblockedWritesAreForwardedAndMark : Prop :=
  ∀ (s : State) (tr : Transaction) (e : ClassEntry) (b : Byte),
    let run := s.affected tr.port e tr.start
    let blocks := fun g => s.fuses.inRecoveryWindow g = true ∨ (tr.phase = .run ∧
      ((∃ r, s.regionOf g = some r ∧ (r.write = .deny ∨ r.write = .denyTrip)) ∨
        ∃ v, s.control.context = some v ∧ s.fuses.inAnchor v.anchor g = true))
    (∀ g, run.holds g = true → ¬ blocks g) →
    let marked := fun (x : SegEntry) => run.holds x.seg &&
      (match s.regionOf x.seg with | some r => decide (r.write = .allowMark) | none => false) &&
      (decide (x.state = .unseen) || decide (x.state = .hashing) || decide (x.state = .verified))
    let gone := (s.segments.filter marked).map (·.seg)
    let t : State := { s.setPort tr.port { s.port tr.port with select := true } with
      transaction := some { tr with disposition := .forward, relayed := tr.received.reverse } }
    (tr.phase ≠ .run → s.judgeWrite tr e b = t) ∧
    (tr.phase = .run → s.judgeWrite tr e b = State.judge (State.settleGates { t with
      segments := s.segments.map (fun x => if marked x then { x with state := .dirty } else x)
      pool := { s.pool with
        slots := s.pool.slots.map (fun c => c.bind (fun x => if x.seg ∈ gone then none else some x))
        gaps := s.pool.gaps.filter (fun x => decide (x ∉ gone)) } }))

/-- A judged write with a blocking segment is blocked whole: no downstream chip select is asserted, a
WRITE_DENIED record names the lowest blocking segment, its region if any, the flat start address (that of
the port's first byte where there is no address) and the command byte; a DENY_TRIP region of that segment
trips the gates whose masks hold it, WRITE_DENIED in a trigger set trips its gate, and the gates move
(R16, R17, R147, R148). -/
def Obligations.BlockedWritesAreDenied : Prop :=
  ∀ (s : State) (tr : Transaction) (e : ClassEntry) (b : Byte) (g : Nat), s.control.phase ≠ .halted →
    let run := s.affected tr.port e tr.start
    let blocks := fun g => s.fuses.inRecoveryWindow g = true ∨ (tr.phase = .run ∧
      ((∃ r, s.regionOf g = some r ∧ (r.write = .deny ∨ r.write = .denyTrip)) ∨
        ∃ v, s.control.context = some v ∧ s.fuses.inAnchor v.anchor g = true))
    run.holds g = true → blocks g → (∀ h, h < g → run.holds h = true → ¬ blocks h) →
    let trips := fun (mask : BitVec 16) (set : BitVec 4) => set.getLsbD 3 ||
      (match s.regionIndex g, s.regionOf g with
        | some i, some r => decide (r.write = .denyTrip) && mask.getLsbD i
        | _, _ => false)
    s.judgeWrite tr e b = State.settleGates { s with
      transaction := some { tr with disposition := .block }
      faults := pushRecord s.faults ⟨.writeDenied, s.time, s.control.phase, s.regionIndex g, some g,
        some (portNumber tr.port * 2 ^ 25 + tr.start.getD 0), b⟩
      alert := s.alert.push s.settings.alertMode s.time
      gates := { s.gates with
        print := { s.gates.print with
          latch := s.gates.print.latch || trips s.gates.print.mask s.settings.printSet }
        scan := { s.gates.scan with
          latch := s.gates.scan.latch || trips s.gates.scan.mask s.settings.scanSet } } }

/-- What the part drives on the upstream data lanes: nothing with no transaction open or a write awaiting
its judgment (R3, R14), flash data where the transaction is forwarded (R18), every lane high where it is
blocked or dropped (R13, R19), and on UIO1 of an escape transaction FFh in every byte of a request, and of
a FETCH FFh in bytes 0 and 1, the frame from byte 2 on and FFh after it (R172, R173). While the command
byte is not whole UIO1 is high for an escape byte and nothing is driven for a transaction that ends before
its eighth bit: how R2 and R172 meet there is the model's reading (assumption log 36). On the downstream
lanes of the transaction's port the bytes relayed run with its entry's lanes and dummy clocks, an unlisted
command as one with one data lane and no dummy clocks (R18, R6), and nothing runs unless it is forwarded
(R4, R13, R14, R19). -/
def Obligations.LanesFollowTheTransaction : Prop :=
  ∀ (s : State) (tr : Transaction) (frame : List Byte) (i : Nat),
    (s.transaction = none → s.drive = .released ∧ s.relay = none) ∧
    (s.transaction = some tr → tr.disposition ≠ .forward → s.relay = none) ∧
    (∀ e, s.transaction = some tr → tr.disposition = .forward → tr.entry = some e → s.relay = some
      { port := tr.port, bytes := tr.relayed.reverse, addressLanes := some e.addressLanes
        dataLanes := e.dataLanes, dummy := e.dummy }) ∧
    (s.transaction = some tr → tr.disposition = .forward → tr.entry = none → s.relay = some
      { port := tr.port, bytes := tr.relayed.reverse, addressLanes := none
        dataLanes := .one, dummy := 0 }) ∧
    (s.transaction = some tr → tr.command = none → s.drive = .commandByte) ∧
    (∀ b, s.transaction = some tr → tr.command = some b →
      (tr.disposition = .pending → s.drive = .released) ∧
      (tr.disposition = .forward → s.drive = .relay) ∧
      (tr.disposition = .block ∨ tr.disposition = .drop → s.drive = .high) ∧
      (tr.disposition = .request → tr.channel = .frame frame → s.drive = .frame frame) ∧
      (tr.disposition = .request → (∀ bytes, tr.channel ≠ .frame bytes) → s.drive = .uio1High)) ∧
    Drive.commandByte.escapeByte 0 = some 0xFF ∧ Drive.uio1High.escapeByte i = some 0xFF ∧
    (Drive.frame frame).escapeByte 0 = some 0xFF ∧ (Drive.frame frame).escapeByte 1 = some 0xFF ∧
    (∀ x, frame[i]? = some x → (Drive.frame frame).escapeByte (i + 2) = some x) ∧
    (frame.length ≤ i → (Drive.frame frame).escapeByte (i + 2) = some 0xFF)

/-! ## The context pool and the segment table (chapters 5 and 6) -/

/-- A whole data byte of a forwarded READ with an address is delivered as flash returned it, or as FFh
where its region's read policy is BLANK and its segment FAILED, and the current address moves on with the
wrap (R90, R11); in RUN and ACTIVE the byte as returned is reported with its flat address, and the gates
act on what it changed; elsewhere it is not reported (R20). That the engine judges at every reported byte
is the model's reading (assumption log 24). Each such byte, as returned, runs on the downstream lanes after
those before it (R18). A whole data byte of any other forwarded transaction, one that the controller sends
for programming among them, is passed on and counted alike, and not reported (R9, R11, R12, R20); that it
comes as this command is the model's choice (assumption log 22). -/
def Obligations.ReadByteIsDeliveredAndReported : Prop :=
  ∀ (b d : Byte) (s : State) (tr : Transaction), s.transaction = some tr → tr.disposition = .forward →
    tr.stage = .dummy ∨ tr.stage = .data →
    let flat := portNumber tr.port * 2 ^ 25 + tr.current
    let space := if tr.addressLength = 3 then min (2 ^ 24) (s.portSize tr.port) else s.portSize tr.port
    let blank := tr.phase = .run ∧ s.segState (flat / 32768) = some .failed ∧
      ∃ r, s.regionOf (flat / 32768) = some r ∧ r.read = .blank
    (∀ e, tr.entry = some e → e.cls = .read → tr.addressLength ≠ 0 →
      (blank → d = 0xFF) → (¬ blank → d = b) →
      let u : State := { s with
        delivered := some d
        transaction := some { tr with
          stage := .data, relayed := b :: tr.relayed
          current := if tr.current + 1 < space then tr.current + 1 else 0 } }
      (s.control.phase = .run → s.power.state = .active →
        exec (.readDataByte b) s = .next (State.judge (State.settleGates (u.reportByte flat b)))) ∧
      (s.control.phase ≠ .run ∨ s.power.state ≠ .active → exec (.readDataByte b) s = .next u)) ∧
    (tr.entry = none ∨ (∃ e, tr.entry = some e ∧ (e.cls ≠ .read ∨ tr.addressLength = 0)) →
      exec (.readDataByte b) s = .next { s with
        delivered := some b
        transaction := some { tr with
          stage := .data, relayed := b :: tr.relayed
          current := if tr.addressLength = 0 then tr.current
            else if tr.current + 1 < space then tr.current + 1 else 0 } })

/-- A reported byte sets its region's touched flag (R77); the first one of a transaction fills the
transaction record with its segment, marked when the segment is UNSEEN or HASHING and the byte lies beyond
the fill of the context that holds it, or beyond 0 (R101); then the byte rule is applied. The byte rule
(R99): a byte of a segment out of use, VERIFIED, FAILED or DIRTY does nothing; one of a HASHING segment
extends its context when it lies exactly at the fill; one at offset 0 of an UNSEEN segment is given the
lowest-numbered free context, or the one evicted for it where none is free, and leaves it with fill 1, the
segment HASHING (R102); any other is skipped. -/
def Obligations.ReportedBytesFollowTheByteRule : Prop :=
  ∀ (s : State) (g offset : Nat) (b : Byte),
    (∀ mark : Bool, offset < 32768 →
      (∀ i j c d, s.pool.context i = some c → s.pool.context j = some d → c.seg = g → d.seg = g →
        i = j) →
      (mark = true ↔ (s.segState g = some .unseen ∨ s.segState g = some .hashing) ∧ 0 < offset ∧
        ∀ i c, s.pool.context i = some c → c.seg = g → c.fill < offset) →
      s.reportByte (g * 32768 + offset) b = State.byteRule { s with
        regions := match s.regionIndex g with
          | some i => s.regions.modify i (fun r => { r with touched := true })
          | none => s.regions
        pool := { s.pool with record := some (s.pool.record.getD ⟨g, mark⟩) } } g offset b) ∧
    (s.segState g = none ∨ s.segState g = some .verified ∨ s.segState g = some .failed ∨
        s.segState g = some .dirty → s.byteRule g offset b = s) ∧
    (∀ i c, s.segState g = some .hashing → s.pool.context i = some c → c.seg = g →
      (∀ j d, j < i → s.pool.context j = some d → d.seg ≠ g) →
      (c.fill = offset → s.byteRule g offset b = s.extend i b .passThrough) ∧
        (c.fill ≠ offset → s.byteRule g offset b = s)) ∧
    (s.segState g = some .unseen → 0 < offset → s.byteRule g offset b = s) ∧
    (∀ i, s.segState g = some .unseen → i < s.pool.slots.length → s.pool.context i = none →
      (∀ j, j < i → s.pool.context j ≠ none) →
        s.byteRule g 0 b = { s with
          segments := s.segments.map (fun e => if e.seg = g then { e with state := .hashing } else e)
          pool := { s.pool with slots := s.pool.slots.set i (some
            { seg := g, role := .verify, fill := 1, lastAdvance := s.time, source := .nothing,
              digest := Sha.fresh.push b }) } }) ∧
    (∀ i, s.segState g = some .unseen → (∀ j, j < s.pool.slots.length → s.pool.context j ≠ none) →
      s.victim = some i →
        let u := s.evict i
        s.byteRule g 0 b = { u with
          segments := u.segments.map (fun e => if e.seg = g then { e with state := .hashing } else e)
          pool := { u.pool with slots := u.pool.slots.set i (some
            { seg := g, role := .verify, fill := 1, lastAdvance := s.time, source := .nothing,
              digest := Sha.fresh.push b }) } })

/-- A byte that extends a context enters its digest, raises its fill by 1 and sets its last-advance time
(R100). The byte at offset 32767 finalises it (R108): with a good parity the digest is compared, the
verdict is written, the context freed and the segment purged from the gap queue; an unequal compare pushes
SEG_MISMATCH for role VERIFY and PATROL_MISMATCH for role PATROL and trips every gate whose mask holds the
region (R84, R109, R110). With a bad parity the part is HALTED, with no verdict, no record and no trip,
the context live (R82). That the context then stays as it was before its last byte is the model's reading
(assumption log 15). -/
def Obligations.LastByteDecidesTheSegment : Prop :=
  ∀ (s : State) (i : Nat) (b : Byte) (stream : Stream) (c : Context), s.pool.context i = some c →
    (c.fill + 1 ≠ 32768 → s.extend i b stream = { s with
      pool := { s.pool with slots := s.pool.slots.set i (some
        { c with fill := c.fill + 1, lastAdvance := s.time, digest := c.digest.push b }) } }) ∧
    (∀ e, c.fill + 1 = 32768 → s.entry c.seg = some e →
      let written := fun (v : SegState) => ({ s with
        segments := s.segments.map (fun x => if x.seg = c.seg then { x with state := v } else x)
        pool := { s.pool with
          slots := s.pool.slots.set i none
          gaps := s.pool.gaps.filter (fun g => g != c.seg) } } : State)
      (Config.segParity e.digest e.region = e.parity → (c.digest.push b).final = e.digest →
        s.extend i b stream = written .verified) ∧
      (Config.segParity e.digest e.region = e.parity → (c.digest.push b).final ≠ e.digest →
        s.control.phase ≠ .halted →
        s.extend i b stream = { written .failed with
          faults := pushRecord s.faults
            { kind := match c.role with | .verify => .segMismatch | .patrol => .patrolMismatch
              timestamp := s.time, phase := s.control.phase, region := some e.region
              segment := some c.seg, address := some (c.seg * 32768)
              detail := match stream with | .passThrough => 0 | .fetch => 1 }
          alert := s.alert.push s.settings.alertMode s.time
          gates := { s.gates with
            print := { s.gates.print with
              latch := s.gates.print.latch || s.gates.print.mask.getLsbD e.region }
            scan := { s.gates.scan with
              latch := s.gates.scan.latch || s.gates.scan.mask.getLsbD e.region } } }) ∧
      (Config.segParity e.digest e.region ≠ e.parity →
        ∃ t, s.extend i b stream = t ∧ t.control.phase = .halted ∧ t.segments = s.segments ∧
          t.pool = { s.pool with record := none } ∧ t.faults = s.faults ∧
          t.gates.print.latch = s.gates.print.latch ∧ t.gates.scan.latch = s.gates.scan.latch ∧
          t.lines.crst = true ∧ t.alert.asserted = true ∧ t.lines.epwr = false ∧
          t.lines.earm = false ∧ t.lines.scnen = false))

/-- With no context free, a pass-through allocation evicts the PATROL context if one is live, else the
VERIFY context of greatest age, the lowest-numbered among equals (R103). The eviction ends a fetch read
that feeds the context; a VERIFY segment returns to UNSEEN and joins the gap queue's newest end unless it
is there or the queue holds 32 (R104, R113); a PATROL segment keeps its state and the patrol cursor is set
back to it (R105, R134). -/
def Obligations.EvictionTakesPatrolThenOldest : Prop :=
  ∀ (s : State),
    (∀ j d, s.pool.context j = some d → d.role = .patrol →
      ∃ i c, s.victim = some i ∧ s.pool.context i = some c ∧ c.role = .patrol) ∧
    ((∀ j d, s.pool.context j = some d → d.role = .verify) →
      ∀ j d, s.pool.context j = some d →
        ∃ i c, s.victim = some i ∧ s.pool.context i = some c ∧
          (s.time - d.lastAdvance).toNat ≤ (s.time - c.lastAdvance).toNat ∧
          ((s.time - d.lastAdvance).toNat = (s.time - c.lastAdvance).toNat → i ≤ j)) ∧
    (∀ i c, s.pool.context i = some c →
      ∀ t : State, (c.source = .nothing → t = s) →
        (∀ r, c.source = .fetch → s.engine.read = some r → t = { s.setPort r.port { s.port r.port with
            owner := .nobody, select := false } with
          engine := { s.engine with job := .idle, read := none } }) →
        c.source = .nothing ∨ s.engine.read ≠ none →
        (c.role = .verify → s.evict i = { t with
          segments := s.segments.map (fun e => if e.seg = c.seg then { e with state := .unseen } else e)
          pool := { s.pool with
            slots := s.pool.slots.set i none
            gaps := if c.seg ∈ s.pool.gaps ∨ 32 ≤ s.pool.gaps.length then s.pool.gaps
              else s.pool.gaps ++ [c.seg] } }) ∧
        (c.role = .patrol → s.evict i = { t with
          pool := { s.pool with slots := s.pool.slots.set i none }
          engine := { t.engine with cursor := c.seg } }))

/-- The deassertion of an upstream chip select ends the transaction of its port (R1): a PENDING write is
dropped (R14), a request still short of parameter bytes is answered BAD_LENGTH (R176), a forwarded MODE4
or MODE3 sets the tracked mode (R10), a forwarded READ whose bytes were reported has its gap judged (R111,
R113). The port's owner becomes NONE unless a wake read has it, the deselect time is recorded and the fill
holdoff in force starts to run (R21). That the engine judges at every deassertion is the model's reading
(assumption log 24). -/
def Obligations.DeassertEndsTheTransaction : Prop :=
  ∀ (p : Port) (s : State), s.control.phase = .run ∨ s.control.phase = .recovery →
    (s.port p).upstream = true →
    let q : PortState := { s.port p with
      upstream := false, deselect := s.time
      owner := if (s.port p).owner = .fetch then .fetch else .nobody
      available := decide (s.settings.holdoff = 0)
      holdoff := if s.settings.holdoff = 0 then none else some s.settings.holdoff }
    (s.transaction = none ∨ (∃ tr, s.transaction = some tr ∧ tr.port ≠ p) →
      exec (.upstreamCsDeassert p) s = .next (State.judge (s.setPort p q))) ∧
    (∀ tr, s.transaction = some tr → tr.port = p →
      (tr.disposition = .pending ∨ tr.disposition = .block ∨ tr.disposition = .drop ∨
          (tr.disposition = .request ∧ ∀ code tag, tr.channel ≠ .parameters code tag) →
        exec (.upstreamCsDeassert p) s = .next (State.judge { s.setPort p q with transaction := none })) ∧
      (∀ code tag, tr.disposition = .request → tr.channel = .parameters code tag →
        exec (.upstreamCsDeassert p) s = .next (State.judge { s.setPort p q with
          transaction := none
          buffer := { state := .ready, tag := tag, code := code, status := some .badLength,
                      data := [] } })) ∧
      (tr.disposition = .forward →
        (∀ e, tr.entry = some e → e.cls = .mode4 ∨ e.cls = .mode3 →
          exec (.upstreamCsDeassert p) s = .next (State.judge { s.setPort p { q with
              select := false, tracked := if e.cls = .mode4 then .four else .three } with
            transaction := none })) ∧
        (tr.entry = none ∨ (∃ e, tr.entry = some e ∧
            (e.cls = .pass ∨ e.cls = .program ∨ e.cls = .erase ∨ (e.cls = .read ∧
              (tr.addressLength = 0 ∨ s.control.phase ≠ .run ∨ s.power.state ≠ .active ∨
                s.pool.record = none)))) →
          exec (.upstreamCsDeassert p) s = .next (State.judge { s.setPort p { q with select := false } with
            transaction := none })) ∧
        (∀ e r, tr.entry = some e → e.cls = .read → tr.addressLength ≠ 0 → s.control.phase = .run →
          s.power.state = .active → s.pool.record = some r →
          exec (.upstreamCsDeassert p) s = .next (State.judge { s.setPort p { q with select := false } with
            transaction := none
            pool := { s.pool with
              record := none
              gaps := if r.mark = true ∧
                  (s.segState r.seg = some .unseen ∨ s.segState r.seg = some .hashing) ∧
                  r.seg ∉ s.pool.gaps ∧ s.pool.gaps.length < 32 then s.pool.gaps ++ [r.seg]
                else s.pool.gaps } }))))

/-! ## The fetch engine (chapter 7) -/

/-- The start of a fill and of a patrol read (R127, R132, R106), each sent with the engine read command,
13h with four address bytes on single lanes and no dummy clocks where none is fused, the command byte on
one lane and the address bytes most significant first, with three of them the address modulo 16 MiB (R34):
the port goes to FETCH with its chip select asserted, the job and the
current read are set; a fill leaves the gap queue without its segment; a new proof takes the free context
with fill 0; a patrol start moves the cursor past its segment and starts the patrol timer. -/
def Obligations.FillAndPatrolReadsStart : Prop :=
  ∀ (s : State) (g i : Nat),
    let p := segmentPort g
    let k := if s.fuses.engineCommand.provisioned then s.fuses.engineCommand
      else ⟨false, 0x13, .four, .one, .one, 0⟩
    let byte := fun (a j : Nat) => BitVec.ofNat 8 (a / 256 ^ j)
    let address := fun (a : Nat) => if k.address = .three then [byte a 2, byte a 1, byte a 0]
      else [byte a 3, byte a 2, byte a 1, byte a 0]
    let read := fun (kind : ReadKind) (fill : Nat) => (
      { port := p, kind := kind, start := g % 1024 * 32768 + fill, command := k.command
        commandLanes := .one, sent := address (g % 1024 * 32768 + fill)
        addressLanes := k.addressLanes, dataLanes := k.dataLanes, dummy := k.dummy.toNat
        count := 32768 - fill } : FetchRead)
    let taken := s.setPort p { s.port p with owner := .fetch, select := true }
    let fresh := fun (role : Role) => (
      { seg := g, role := role, fill := 0, lastAdvance := s.time, source := .fetch, digest := Sha.fresh }
        : Context)
    (s.pool.freeSlot = some i →
      s.startFill g = { taken with
        segments := s.segments.map (fun e => if e.seg = g then { e with state := .hashing } else e)
        pool := { s.pool with
          slots := s.pool.slots.set i (some (fresh .verify))
          gaps := s.pool.gaps.filter (fun x => x != g) }
        engine := { s.engine with job := .fill, read := some (read (.fill i) 0) } } ∧
      s.startPatrol g = { taken with
        pool := { s.pool with slots := s.pool.slots.set i (some (fresh .patrol)) }
        engine := { s.engine with
          job := .patrol, read := some (read (.patrol i) 0), cursor := if g = 2047 then 0 else g + 1
          timer := { start := if s.settings.patrol = 0 then none else some s.time
                     interval := s.settings.patrol }
          due := decide (s.settings.patrol = 0) } }) ∧
    (∀ c, s.pool.context i = some c → c.seg = g →
      (c.role = .verify → s.resume i = { taken with
        pool := { s.pool with
          slots := s.pool.slots.set i (some { c with source := .fetch })
          gaps := s.pool.gaps.filter (fun x => x != g) }
        engine := { s.engine with job := .fill, read := some (read (.fill i) c.fill) } }) ∧
      (c.role = .patrol → s.resume i = { taken with
        pool := { s.pool with slots := s.pool.slots.set i (some { c with source := .fetch }) }
        engine := { s.engine with job := .patrol, read := some (read (.patrol i) c.fill) } }))

/-- The engine's judgment takes the oldest servable gap queue entry first: one whose port is free and
whose segment is HASHING, or UNSEEN with a context free (R121, R123); and with none servable, the live
VERIFY context of greatest age on a free port, the lowest-numbered among equals (R124). -/
def Obligations.GapQueueThenLiveContextsAreServed : Prop :=
  ∀ s : State, s.poolLaw → s.control.phase = .run → s.power.state = .active → s.engine.job = .idle →
    let onFreePort := fun (g : Nat) =>
      (s.port (segmentPort g)).available = true ∧ (s.port (segmentPort g)).owner = .nobody
    let servable := fun (g : Nat) => onFreePort g ∧ (s.segState g = some .hashing ∨
      (s.segState g = some .unseen ∧ ∃ i, i < 6 ∧ s.pool.context i = none))
    (∀ older g newer, s.pool.gaps = older ++ g :: newer → (∀ h ∈ older, ¬ servable h) → servable g →
      (s.segState g = some .unseen → s.judge = s.startFill g) ∧
      (∀ i c, s.segState g = some .hashing → s.pool.context i = some c → c.seg = g →
        s.judge = s.resume i)) ∧
    ((∀ g ∈ s.pool.gaps, ¬ servable g) →
      ∀ i c, s.pool.context i = some c → c.role = .verify → onFreePort c.seg →
        (∀ j d, s.pool.context j = some d → d.role = .verify → onFreePort d.seg →
          (s.time - d.lastAdvance).toNat ≤ (s.time - c.lastAdvance).toNat ∧
            ((s.time - d.lastAdvance).toNat = (s.time - c.lastAdvance).toNat → i ≤ j)) →
        s.judge = s.resume i)

/-- When neither the gap queue nor a live VERIFY context yields a candidate and a context is free, the
sweep takes the regions of the fill request mask first, then the other touched ones, then the rest, each
group by ascending index, passes over regions on a port that is not free, and starts a proof of the
lowest-numbered UNSEEN segment of the first region that holds one (R125). -/
def Obligations.SweepTakesMaskedThenTouchedRegions : Prop :=
  ∀ (s : State) (k x : Nat) (r : Region), s.control.phase = .run → s.power.state = .active →
    s.engine.job = .idle → (∃ i, i < s.pool.slots.length ∧ s.pool.context i = none) →
    let free := fun (p : Port) => (s.port p).available = true ∧ (s.port p).owner = .nobody
    let rank := fun (j : Nat) (q : Region) =>
      if s.engine.fillMask.getLsbD j then 0 else if q.touched then 1 else 2
    let unseenAt := fun (q : Region) (y : Nat) =>
      y < q.count ∧ s.segState (portNumber q.port * 1024 + q.first + y) = some .unseen
    (∀ g ∈ s.pool.gaps, free (segmentPort g) →
      s.segState g ≠ some .hashing ∧ s.segState g ≠ some .unseen) →
    (∀ j d, s.pool.context j = some d → d.role = .verify → ¬ free (segmentPort d.seg)) →
    s.regions[k]? = some r → free r.port → unseenAt r x → (∀ y, y < x → ¬ unseenAt r y) →
    (∀ j q, s.regions[j]? = some q → free q.port →
      rank j q < rank k r ∨ (rank j q = rank k r ∧ j < k) → ∀ y, ¬ unseenAt q y) →
    s.judge = s.startFill (portNumber r.port * 1024 + r.first + x)

/-- With no fill candidate - no servable gap queue entry, no live VERIFY context on a free port, and, while
a context is free, no UNSEEN segment of a region on a free port - the judgment comes to the patrol (R121,
R123, R124, R125). A live PATROL context is resumed where its port is free, and waits where it is not
(R132); where the patrol interval in force is 0 it is freed with the cursor set to its segment (R132),
whether or not its port is free, which is the model's reading (assumption log 11), and the judgment goes on
with the context freed: it ends there where another context was free before. With none live the first
eligible segment from the cursor upward, passing from the highest to the lowest, is started, if its port is
free, when the interval is not 0, the boot is confirmed, the due flag is set and a context is free; where
any of these fails, no context being free among them, nothing is started (R131). -/
def Obligations.PatrolTakesTheFirstEligibleSegment : Prop :=
  ∀ s : State, s.control.phase = .run → s.power.state = .active → s.engine.job = .idle →
    s.pool.slots.length = 6 →
    let onFreePort := fun (g : Nat) =>
      (s.port (segmentPort g)).available = true ∧ (s.port (segmentPort g)).owner = .nobody
    let contextFree := ∃ i, i < 6 ∧ s.pool.context i = none
    let eligible := fun (g : Nat) => s.segState g = some .verified ∧
      ∃ r, s.regionOf g = some r ∧ r.patrol = true
    (∀ g ∈ s.pool.gaps, ¬ (onFreePort g ∧ (s.segState g = some .hashing ∨
      (s.segState g = some .unseen ∧ contextFree)))) →
    (∀ i c, s.pool.context i = some c → c.role = .verify → ¬ onFreePort c.seg) →
    (contextFree → ∀ r ∈ s.regions, (s.port r.port).available = true → (s.port r.port).owner = .nobody →
      ∀ k, k < r.count → s.segState (portNumber r.port * 1024 + r.first + k) ≠ some .unseen) →
    (∀ i c, s.pool.context i = some c → c.role = .patrol →
      (∀ j d, s.pool.context j = some d → d.role = .patrol → j = i) →
      let freed := { s with
        pool := { s.pool with slots := s.pool.slots.set i none }
        engine := { s.engine with cursor := c.seg } }
      (s.settings.patrol ≠ 0 → onFreePort c.seg → s.judge = s.resume i) ∧
      (s.settings.patrol ≠ 0 → ¬ onFreePort c.seg → s.judge = s) ∧
      (s.settings.patrol = 0 → s.judge = freed.judge) ∧
      (s.settings.patrol = 0 → contextFree → s.judge = freed)) ∧
    ((∀ i c, s.pool.context i = some c → c.role = .verify) →
      (s.settings.patrol = 0 ∨ s.control.bootConfirmed = false ∨ s.engine.due = false ∨ ¬ contextFree ∨
          (∀ g, ¬ eligible g) → s.judge = s) ∧
      (∀ g, s.settings.patrol ≠ 0 → s.control.bootConfirmed = true → s.engine.due = true → contextFree →
        eligible g →
        (∀ h, eligible h → (s.engine.cursor ≤ g → s.engine.cursor ≤ h → g ≤ h) ∧
          (g < s.engine.cursor → h < s.engine.cursor ∧ g ≤ h)) →
        (onFreePort g → s.judge = s.startPatrol g) ∧ (¬ onFreePort g → s.judge = s)))

/-- A whole byte of a fill or patrol read extends the read's context (R107); the last byte of its segment
completes the read in the same event: after the verdict the port's chip select falls, its owner is NONE,
the job is IDLE with no current read, and the gates and the engine act (R128, R133). With a bad parity the
part is HALTED instead and no verdict is written (R82). That the context stays as it was before that byte
is the model's reading (assumption log 15). -/
def Obligations.FetchBytesExtendTheReadsContext : Prop :=
  ∀ (b : Byte) (s : State) (r : FetchRead) (i : Nat) (c : Context), s.engine.read = some r →
    r.kind = .fill i ∨ r.kind = .patrol i → s.pool.context i = some c → s.control.phase = .run →
    let u := s.extend i b .fetch
    (c.fill + 1 ≠ 32768 → exec (.fetchDataByte b) s = .next u) ∧
    (∀ e, c.fill + 1 = 32768 → s.entry c.seg = some e →
      (Config.segParity e.digest e.region = e.parity →
        exec (.fetchDataByte b) s = .next (State.judge (State.settleGates
          { u.setPort r.port { u.port r.port with owner := .nobody, select := false } with
            engine := { u.engine with job := .idle, read := none } }))) ∧
      (Config.segParity e.digest e.region ≠ e.parity →
        ∃ t, exec (.fetchDataByte b) s = .next t ∧ t.control.phase = .halted ∧ t.engine.job = .idle ∧
          t.engine.read = none ∧ t.segments = s.segments ∧ t.pool.slots = s.pool.slots ∧
          t.faults = s.faults ∧ t.lines.crst = true ∧ t.alert.asserted = true))

/-- The fill holdoff of a deselected port elapses: the port becomes available and the engine judges (R21,
R122). The patrol timer expires: the due flag is set and the engine judges (R130, R121). The timebase then
stands at the due value (assumption log 2). That the stopped timer keeps its latched interval is the
model's choice (assumption log 40). -/
def Obligations.HoldoffAndPatrolTimersElapse : Prop :=
  ∀ (p : Port) (s : State),
    (∀ h, (s.port p).holdoff = some h → (s.port p).upstream = false →
      ((s.port p).deselect + BitVec.ofNat 32 h - s.time).toNat < 2 ^ 31 →
      exec (.portAvailable p) s = .next (State.judge { s.setPort p { s.port p with
          available := true, holdoff := none } with
        time := (s.port p).deselect + BitVec.ofNat 32 h })) ∧
    (∀ start n, s.engine.timer = { start := some start, interval := n } →
      (start + BitVec.ofNat 32 (1000 * n) - s.time).toNat < 2 ^ 31 →
      exec .patrolTimerExpiry s = .next (State.judge { s with
        time := start + BitVec.ofNat 32 (1000 * n)
        engine := { s.engine with timer := { start := none, interval := n }, due := true } }))

/-! ## The gates, the deadline and the tamper input (chapter 8) -/

/-- The gates move by R140's table on their conditions and latches as an event leaves them, the sequence
timer taking the interval in force (R141) and remembering, which is the model's own (assumption log 37),
that an expiry of the timer it replaces is yet to come (R145), an interval of 0 passing through in the same
event (R142), the scan gate resting in OFF or ON (R142), the lines following (R143); nothing else changes but what the first
ON sets: boot-confirmed, the deadline disarmed and the patrol timer started (R144, R130). -/
def Obligations.GatesMoveByTheTable : Prop :=
  ∀ s : State,
    let n := s.settings.interval
    let late := match s.gates.timer with
      | none => false
      | some old => decide ((s.time - (old.start + BitVec.ofNat 32 (1000 * old.interval))).toNat < 2 ^ 31) ||
          (old.superseded && decide (old.start = s.time))
    let good := fun (g : Gate) => s.control.phase = .run ∧ s.power.state = .active ∧ g.latch = false ∧
      ∀ i, i < 16 → g.mask.getLsbD i = true → s.summary i = .verified
    ∃ t, s.settleGates = t ∧
      t = { s with
        control := { s.control with bootConfirmed := t.control.bootConfirmed }
        engine := { s.engine with timer := t.engine.timer, due := t.engine.due }
        gates := t.gates, lines := t.lines } ∧
      t.gates = { s.gates with
        print := { s.gates.print with state := t.gates.print.state }
        scan := { s.gates.scan with state := t.gates.scan.state }
        timer := t.gates.timer, deadline := t.gates.deadline } ∧
      t.lines = { s.lines with epwr := t.lines.epwr, earm := t.lines.earm, scnen := t.lines.scnen } ∧
      (good s.gates.print → s.gates.print.state = .off ∨ s.gates.print.state = .falling → n ≠ 0 →
        t.gates.print.state = .rising ∧ t.gates.timer = some ⟨s.time, n, late⟩ ∧
          t.gates.deadline = s.gates.deadline ∧ t.lines.epwr = true ∧ t.lines.earm = false) ∧
      (good s.gates.print → s.gates.print.state = .off ∨ s.gates.print.state = .falling → n = 0 →
        t.gates.print.state = .on ∧ t.gates.timer = none ∧ t.control.bootConfirmed = true ∧
          t.lines.epwr = true ∧ t.lines.earm = true) ∧
      (¬ good s.gates.print → s.gates.print.state = .rising ∨ s.gates.print.state = .on → n ≠ 0 →
        t.gates.print.state = .falling ∧ t.gates.timer = some ⟨s.time, n, late⟩ ∧ t.lines.epwr = true ∧
          t.lines.earm = false) ∧
      (¬ good s.gates.print → s.gates.print.state = .rising ∨ s.gates.print.state = .on → n = 0 →
        t.gates.print.state = .off ∧ t.gates.timer = none ∧ t.lines.epwr = false ∧
          t.lines.earm = false) ∧
      ((good s.gates.print ∧ (s.gates.print.state = .rising ∨ s.gates.print.state = .on)) ∨
          (¬ good s.gates.print ∧ (s.gates.print.state = .off ∨ s.gates.print.state = .falling)) →
        t.gates.print = s.gates.print ∧ t.gates.timer = s.gates.timer ∧ t.lines.epwr = s.lines.epwr ∧
          t.lines.earm = s.lines.earm) ∧
      (good s.gates.print → s.gates.print.state = .off ∨ s.gates.print.state = .falling → n = 0 →
          s.control.bootConfirmed = false →
        t.gates.deadline = .disarmed ∧ t.control = { s.control with bootConfirmed := true } ∧
          t.engine = { s.engine with
            timer := { start := if s.settings.patrol = 0 then none else some s.time
                       interval := s.settings.patrol }
            due := decide (s.settings.patrol = 0) }) ∧
      (¬ good s.gates.print ∨ s.gates.print.state = .rising ∨ s.gates.print.state = .on ∨ n ≠ 0 ∨
          s.control.bootConfirmed = true →
        t.control = s.control ∧ t.engine = s.engine ∧ t.gates.deadline = s.gates.deadline) ∧
      (good s.gates.scan → t.gates.scan.state = .on ∧ t.lines.scnen = true) ∧
      (¬ good s.gates.scan → t.gates.scan.state = .off ∧ t.lines.scnen = false)

/-- The sequence timer's expiry takes the print gate from RISING to ON with EARM, the first time
confirming the boot, disarming the deadline and starting the patrol timer, on which the engine judges
(R140, R144, R130, R121), and from FALLING to OFF with EPWR down (R143); in ENTERING_DOZE with the scan
gate OFF that completes doze entry: DOZE with FPWR deasserted, the tracked modes 3-byte, the ports idle
and an open transaction abandoned (R186, R10). The timebase then stands at the due value (assumption log
2). An expiry taken after the event that restarted the timer at the same instant finds the restarted timer
running and does nothing to the gate (R145, R157); that it is told apart by the model's own mark, which it
clears, is the model's choice (assumption log 37). -/
def Obligations.SequenceTimerMovesThePrintGate : Prop :=
  ∀ (s : State) (start : Time) (n : Nat) (late : Bool), s.gates.timer = some ⟨start, n, late⟩ →
    (late = true ∧ start = s.time → exec .sequenceTimerExpiry s =
      .next { s with gates := { s.gates with timer := some ⟨start, n, false⟩ } }) ∧
    (¬ (late = true ∧ start = s.time) →
    (start + BitVec.ofNat 32 (1000 * n) - s.time).toNat < 2 ^ 31 →
    let due := start + BitVec.ofNat 32 (1000 * n)
    let moved := fun (st : GateState) (power arm : Bool) => ({ s with
      time := due
      gates := { s.gates with print := { s.gates.print with state := st }, timer := none }
      lines := { s.lines with epwr := power, earm := arm } } : State)
    (s.gates.print.state = .rising → s.control.bootConfirmed = true →
      exec .sequenceTimerExpiry s = .next (moved .on true true)) ∧
    (s.gates.print.state = .rising → s.control.bootConfirmed = false →
      exec .sequenceTimerExpiry s = .next (State.judge { moved .on true true with
        control := { s.control with bootConfirmed := true }
        gates := { (moved .on true true).gates with deadline := .disarmed }
        engine := { s.engine with
          timer := { start := if s.settings.patrol = 0 then none else some due
                     interval := s.settings.patrol }
          due := decide (s.settings.patrol = 0) } })) ∧
    (s.gates.print.state = .falling → s.power.state ≠ .enteringDoze →
      exec .sequenceTimerExpiry s = .next (moved .off false false)) ∧
    (s.gates.print.state = .falling → s.power.state = .enteringDoze → s.gates.scan.state = .off →
      exec .sequenceTimerExpiry s = .next { moved .off false false with
        power := { s.power with state := .doze, fpwr := false }
        port0 := { s.port0 with owner := .nobody, select := false, tracked := .three }
        port1 := { s.port1 with owner := .nobody, select := false, tracked := .three }
        transaction := none }))

/-- An armed deadline that expires becomes EXPIRED, pushes a DEADLINE record with the expiry's timestamp
and detail 0, and trips the gates whose trigger sets hold DEADLINE; a deadline that is not armed makes no
expiry (R156, R157, R148). A tamper sample equal to the filtered level clears the run count, a different
one raises it, and the fourth different one in a row changes the filtered level (R153). A filtered
assertion pushes a TAMPER record of detail 0 and trips the gates whose trigger sets hold TAMPER, except in
HALTED; a filtered deassertion changes the level alone (R154). The timebase then stands at the due value
(assumption log 2). -/
def Obligations.DeadlineAndTamperPushAndTrip : Prop :=
  ∀ (high : Bool) (s : State),
    (s.gates.deadline ≠ .armed → exec .deadlineExpiry s = .next s) ∧
    (s.gates.deadline = .armed → s.control.phase = .run →
      (s.gates.deadlineAt - s.time).toNat < 2 ^ 31 →
      exec .deadlineExpiry s = .next (State.settleGates { s with
        time := s.gates.deadlineAt
        faults := pushRecord s.faults ⟨.deadline, s.gates.deadlineAt, .run, none, none, none, 0⟩
        alert := s.alert.push s.settings.alertMode s.gates.deadlineAt
        gates := { s.gates with
          deadline := .expired
          print := { s.gates.print with latch := s.gates.print.latch || s.settings.printSet.getLsbD 0 }
          scan := { s.gates.scan with latch := s.gates.scan.latch || s.settings.scanSet.getLsbD 0 } } })) ∧
    (s.lines.rst = false → (s.gates.sampledAt + 1000 - s.time).toNat < 2 ^ 31 →
      let due := s.gates.sampledAt + 1000
      let sampled := fun (level : Bool) (run : Nat) => ({ s with
        time := due
        gates := { s.gates with tamper := level, tamperRun := run, sampledAt := due } } : State)
      (high = s.gates.tamper →
        exec (.tamperSample high) s = .next (sampled s.gates.tamper 0)) ∧
      (high ≠ s.gates.tamper → s.gates.tamperRun < 3 →
        exec (.tamperSample high) s = .next (sampled s.gates.tamper (s.gates.tamperRun + 1))) ∧
      (high ≠ s.gates.tamper → s.gates.tamperRun = 3 → high = false ∨ s.control.phase = .halted →
        exec (.tamperSample high) s = .next (sampled high 0)) ∧
      (s.gates.tamper = false → s.gates.tamperRun = 3 → high = true → s.control.phase ≠ .halted →
        exec (.tamperSample high) s = .next (State.settleGates { sampled true 0 with
          faults := pushRecord s.faults ⟨.tamper, due, s.control.phase, none, none, none, 0⟩
          alert := s.alert.push s.settings.alertMode due
          gates := { (sampled true 0).gates with
            print := { s.gates.print with latch := s.gates.print.latch || s.settings.printSet.getLsbD 1 }
            scan := { s.gates.scan with latch := s.gates.scan.latch || s.settings.scanSet.getLsbD 1 } } })))

/-! ## The alert line (chapter 9) -/

/-- A push asserts the line in LEVEL mode (R167); in PULSE mode it raises the pending count, up to 15, and
begins a pulse where the line is idle (R168). A pulse's asserted time of 2 µs ends with the count lowered
by 1 and the line deasserted for 2 µs; when that ends the next pending pulse begins, or the line is idle
(R168). -/
def Obligations.AlertLineLevelAndPulses : Prop :=
  ∀ (s : State) (a : Alert) (now start : Time),
    a.push .level now = { a with asserted := true } ∧
    (a.timing = .idle → a.push .pulse now =
      { asserted := true, pendingPulses := min 15 (a.pendingPulses + 1), timing := .pulse now }) ∧
    (a.timing ≠ .idle → a.push .pulse now =
      { a with pendingPulses := min 15 (a.pendingPulses + 1) }) ∧
    ((start + 2 - s.time).toNat < 2 ^ 31 →
      (s.alert.timing = .pulse start → exec .alertPulseEnd s = .next { s with
        time := start + 2
        alert := { asserted := false, pendingPulses := s.alert.pendingPulses - 1,
                   timing := .gap (start + 2) } }) ∧
      (s.alert.timing = .gap start → s.alert.pendingPulses = 0 → exec .alertGapEnd s = .next { s with
        time := start + 2, alert := { s.alert with timing := .idle } }) ∧
      (s.alert.timing = .gap start → 0 < s.alert.pendingPulses → exec .alertGapEnd s = .next { s with
        time := start + 2
        alert := { s.alert with asserted := true, timing := .pulse (start + 2) } }))

/-! ## The requests (chapter 10) and ADVANCE (2.6) -/

/-- FETCH copies the response buffer into the frame that the part drives from byte 2 on: state, tag, code,
status, data length, data; an EMPTY buffer gives five zero bytes, a WORKING one its tag and code with no
status and no data (R173). The buffer keeps its contents (R171). -/
def Obligations.FetchCopiesTheBuffer : Prop :=
  ∀ (s : State) (tr : Transaction), s.transaction = some tr → tr.disposition = .request →
    tr.channel = .awaiting →
    let driven := fun (bytes : List Byte) =>
      exec .fetch s = .next { s with transaction := some { tr with channel := .frame bytes } }
    (s.buffer.state = .empty → driven [0, 0, 0, 0, 0]) ∧
    (s.buffer.state = .working → driven [1, s.buffer.tag, s.buffer.code, 0, 0]) ∧
    (∀ st, s.buffer.state = .ready → s.buffer.status = some st →
      driven ([2, s.buffer.tag, s.buffer.code, BitVec.ofNat 8 st.code,
        BitVec.ofNat 8 s.buffer.data.length] ++ s.buffer.data))

/-- The length byte of a request is judged in R174's order: discarded while the buffer is WORKING; an
unknown code BAD_REQUEST; a code not accepted here NOT_ALLOWED; a wrong length BAD_LENGTH; else accepted,
waiting for its parameters, or taken at once where it has none (R172). The power state is that of R175,
WAKING for a transaction opened in WAKING (R187; assumption log 13). That a request without parameters is
the same event as its own command is the model's choice (assumption log 10). -/
def Obligations.LengthByteIsJudgedInOrder : Prop :=
  ∀ (code tag length : Byte) (s : State) (tr : Transaction), s.transaction = some tr →
    tr.disposition = .request → tr.channel = .awaiting →
    let expected := if code = 2 then 3 else if code = 3 ∨ code = 5 ∨ code = 6 then 1
      else if code = 7 then 8 else if code = 9 then 2 else 0
    let known := 0 < code.toNat ∧ code.toNat ≤ 12
    let accepted := accepts s.control.phase (if tr.waking then .waking else s.power.state) code = true
    let answered := fun (st : Status) =>
      exec (.requestLengthByte code tag length) s = .next (s.answered tag code st [])
    (s.buffer.state = .working → known → exec (.requestLengthByte code tag length) s =
      .next { s with transaction := some { tr with channel := .done } }) ∧
    (s.buffer.state = .working → 12 < code.toNat → exec (.unknownRequest tag code) s =
      .next { s with transaction := some { tr with channel := .done } }) ∧
    (s.buffer.state ≠ .working → 12 < code.toNat →
      exec (.unknownRequest tag code) s = .next (s.answered tag code .badRequest [])) ∧
    (s.buffer.state ≠ .working → known →
      (¬ accepted → answered .notAllowed) ∧
      (accepted → length.toNat ≠ expected → answered .badLength) ∧
      (accepted → length.toNat = expected → expected ≠ 0 →
        exec (.requestLengthByte code tag length) s =
          .next { s with transaction := some { tr with channel := .parameters code tag } }) ∧
      (accepted → length = 0 →
        (code = 1 → exec (.requestLengthByte code tag length) s = exec (.status tag) s) ∧
        (code = 4 → exec (.requestLengthByte code tag length) s = exec (.faultAck tag) s) ∧
        (code = 8 → exec (.requestLengthByte code tag length) s = exec (.lock tag) s) ∧
        (code = 10 → exec (.requestLengthByte code tag length) s = exec (.time tag) s) ∧
        (code = 11 → exec (.requestLengthByte code tag length) s = exec (.doze tag) s) ∧
        (code = 12 → exec (.requestLengthByte code tag length) s = exec (.advance tag) s)))

/-- The requests accepted in each phase and power state (R175). -/
def Obligations.AcceptanceByPhaseAndPower : Prop :=
  ∀ (phase : Phase) (power : PowerState) (n : Nat), n < 256 →
    (accepts phase power (BitVec.ofNat 8 n) = true ↔
      (phase = .run ∧ power = .active ∧ 1 ≤ n ∧ n ≤ 12) ∨
      (phase = .recovery ∧ power = .active ∧ n ∈ [1, 2, 3, 4, 5, 6, 10, 11]) ∨
      ((phase = .run ∨ phase = .recovery) ∧ power = .enteringDoze ∧ n ∈ [1, 10, 11]) ∨
      ((phase = .run ∨ phase = .recovery) ∧ power = .waking ∧ n ∈ [1, 10]))

/-- STATUS is answered OK with the 34 bytes of the part as it stands, and changes nothing else (R177,
R166, R95, R31). The command is the last parameter byte of its request, or its whole request (`awaits`:
the model's choice, assumption log 10). Unnamed flag bits are 0 (assumption log 35). -/
def Obligations.StatusReportsThePart : Prop :=
  ∀ (tag : Byte) (s : State), s.awaits 1 tag →
    let u8 := fun (n : Nat) => BitVec.ofNat 8 n
    let u16 := fun (n : Nat) => [u8 n, u8 (n / 256)]
    let bit := fun (place : Nat) (flag : Bool) => if flag then 2 ^ place else 0
    let sequence := match s.control.context with | some c => c.sequence | none => 0
    let anchor := match s.control.context with
      | some c => (match c.anchor with | .primary => 1 | .fallback => 2)
      | none => 0
    let count := fun (st : SegState) => (s.segments.filter (fun e => decide (e.state = st))).length
    let live := (s.pool.slots.filter (fun c => c.isSome)).length
    exec (.status tag) s = .next (s.answered tag 1 .ok (
      [u8 s.control.phase.code, u8 s.power.state.code, u8 s.gates.print.state.code,
        u8 s.gates.scan.state.code,
        u8 (bit 0 s.gates.print.latch + bit 1 s.gates.scan.latch + bit 2 s.control.bootConfirmed +
          bit 3 s.lock + bit 4 s.gates.tamper),
        u8 s.faults.length, u8 s.gates.deadline.code, u8 s.pool.gaps.length, u8 live,
        u8 s.engine.job.code, u8 anchor, 0,
        u8 sequence, u8 (sequence / 256), u8 (sequence / 65536), u8 (sequence / 16777216)] ++
      u16 (count .unseen) ++ u16 (count .hashing) ++ u16 (count .verified) ++ u16 (count .failed) ++
      u16 (count .dirty) ++
      (List.range 8).map (fun c => BitVec.ofInt 8 (s.control.differences.getD c 0))))

/-- VERDICTS is answered with the verdict report: format, present mask, record count, and a record of
eight bytes for each index in STANDARD and for each present one in COMPACT; a format that is neither is
refused with BAD_REQUEST; nothing else changes (R178). A region's summary is the first of R92's order that
holds, its verified count and first failed position are those of R94. The command is the last parameter
byte of its request, or its whole request (`awaits`: the model's choice, assumption log 10). Unnamed flag
bits are 0 (assumption log 35). -/
def Obligations.VerdictsReportTheRegions : Prop :=
  ∀ (tag mask0 mask1 format : Byte) (s : State), s.awaits 2 tag →
    let u8 := fun (n : Nat) => BitVec.ofNat 8 n
    let bit := fun (place : Nat) (flag : Bool) => if flag then 2 ^ place else 0
    let present := fun (i : Nat) => (mask1 ++ mask0).getLsbD i && decide (i < s.regions.length)
    let record := fun (i : Nat) => match s.regions[i]? with
      | some r => if present i then
          [u8 i, u8 (s.regionSummary r).code, u8 (bit 0 r.touched + bit 1 r.patrol),
            BitVec.ofInt 8 (s.control.differences.getD r.imageClass 0),
            u8 (s.verifiedCount r), u8 (s.verifiedCount r / 256),
            u8 (s.firstFailed r), u8 (s.firstFailed r / 256)]
        else [u8 i, 5, 0, 0, 0, 0, 0, 0]
      | none => [u8 i, 5, 0, 0, 0, 0, 0, 0]
    (format ≠ 0 → format ≠ 1 → exec (.verdicts tag mask0 mask1 format) s =
      .next (s.answered tag 2 .badRequest [])) ∧
    (∀ m : BitVec 16, (∀ i, i < 16 → m.getLsbD i = present i) →
      let header := fun (n : Nat) => [format, u8 m.toNat, u8 (m.toNat / 256), u8 n]
      (format = 0 → exec (.verdicts tag mask0 mask1 format) s =
        .next (s.answered tag 2 .ok (header 16 ++ (List.range 16).flatMap record))) ∧
      (format = 1 →
        let shown := (List.range 16).filter present
        exec (.verdicts tag mask0 mask1 format) s =
          .next (s.answered tag 2 .ok (header shown.length ++ shown.flatMap record)))) ∧
    (∀ r, r ∈ s.regions →
      let at' := fun (k : Nat) => s.segState (portNumber r.port * 1024 + r.first + k)
      let some' := fun (st : SegState) => ∃ k, k < r.count ∧ at' k = some st
      let every := ∀ k, k < r.count → at' k = some .verified
      (some' .failed → s.regionSummary r = .failed) ∧
      (¬ some' .failed → some' .dirty → s.regionSummary r = .dirty) ∧
      (¬ some' .failed → ¬ some' .dirty → every → s.regionSummary r = .verified) ∧
      (¬ some' .failed → ¬ some' .dirty → ¬ every → some' .hashing ∨ some' .verified →
        s.regionSummary r = .inProgress) ∧
      (¬ some' .failed → ¬ some' .dirty → ¬ every → ¬ some' .hashing → ¬ some' .verified →
        s.regionSummary r = .unseen) ∧
      s.verifiedCount r = ((List.range r.count).filter (fun k => decide (at' k = some .verified))).length ∧
      (∀ k, k < r.count → at' k = some .failed → (∀ j, j < k → at' j ≠ some .failed) →
        s.firstFailed r = k) ∧
      (¬ some' .failed → s.firstFailed r = 0xFFFF))

/-- FAULT_READ answers OK with the record at its depth, or EMPTY where the stack is not that deep, and
changes nothing else (R163); FAULT_ACK removes the newest record and answers OK with it, ALRT_N following
the depth in LEVEL mode (R164, R167), or EMPTY where there is none. A record is 16 bytes (12.3). The
command is the last parameter byte of its request, or its whole request (`awaits`: the model's choice,
assumption log 10). Unnamed presence bits are 0 (assumption log 35). -/
def Obligations.FaultRecordsAreReadAndAcknowledged : Prop :=
  ∀ (tag depth : Byte) (s : State),
    let u8 := fun (n : Nat) => BitVec.ofNat 8 n
    let u32 := fun (n : Nat) => [u8 n, u8 (n / 256), u8 (n / 65536), u8 (n / 16777216)]
    let bit := fun (place : Nat) (flag : Bool) => if flag then 2 ^ place else 0
    let bytes := fun (r : FaultRecord) =>
      [u8 r.kind.code, u8 r.phase.code, r.detail,
        u8 (bit 0 r.region.isSome + bit 1 r.segment.isSome + bit 2 r.address.isSome)] ++
      u32 r.timestamp.toNat ++
      [u8 (r.region.getD 0), 0, u8 (r.segment.getD 0), u8 (r.segment.getD 0 / 256)] ++
      u32 (r.address.getD 0)
    (s.awaits 3 tag →
      (∀ r, s.faults[depth.toNat]? = some r →
        exec (.faultRead tag depth) s = .next (s.answered tag 3 .ok (bytes r))) ∧
      (s.faults.length ≤ depth.toNat →
        exec (.faultRead tag depth) s = .next (s.answered tag 3 .empty []))) ∧
    (s.awaits 4 tag →
      (s.faults = [] → exec (.faultAck tag) s = .next (s.answered tag 4 .empty [])) ∧
      (∀ r rest, s.faults = r :: rest →
        exec (.faultAck tag) s = .next { s.answered tag 4 .ok (bytes r) with
          faults := rest
          alert := if s.settings.alertMode = .level then
              { s.alert with asserted := decide (rest ≠ []) }
            else s.alert }))

/-- REARM clears every selected latch that is set, or answers NOT_TRIPPED where none is (R150); FORCE_OFF
sets every selected latch and answers OK (R151). The gates then move by R140; where that confirms the boot
the engine judges (R121). The command is the last parameter byte of its request, or its whole request
(`awaits`: the model's choice, assumption log 10). -/
def Obligations.RearmAndForceOffActOnTheLatches : Prop :=
  ∀ (tag gates : Byte) (s : State),
    let p := gates.getLsbD 0
    let q := gates.getLsbD 1
    let latched := fun (a b : Bool) => ({ s with
      gates := { s.gates with
        print := { s.gates.print with latch := a }
        scan := { s.gates.scan with latch := b } } } : State)
    (s.awaits 5 tag →
      ((p = true → s.gates.print.latch = false) → (q = true → s.gates.scan.latch = false) →
        exec (.rearm tag gates) s = .next (s.answered tag 5 .notTripped [])) ∧
      ((p = true ∧ s.gates.print.latch = true) ∨ (q = true ∧ s.gates.scan.latch = true) →
        let t := (latched (s.gates.print.latch && !p) (s.gates.scan.latch && !q)).settleGates
        exec (.rearm tag gates) s =
          .next ((if t.control.bootConfirmed = s.control.bootConfirmed then t else t.judge).answered
            tag 5 .ok []))) ∧
    (s.awaits 6 tag →
      exec (.forceOff tag gates) s =
        .next ((latched (s.gates.print.latch || p) (s.gates.scan.latch || q)).settleGates.answered
          tag 6 .ok []) ∧
      (s.settled → s.linesFollow → p = false → q = false →
        exec (.forceOff tag gates) s = .next (s.answered tag 6 .ok [])))

/-- SETTINGS replaces the six carried settings, clamped, and echoes them, unless the lock is set, when it
answers LOCKED and changes none; the alert line follows a change of its mode (R180, R47, R169). LOCK sets
the lock (R180). FILL_MASK sets the fill request mask whole and the engine judges; TIME answers with the
four bytes of the timebase and changes nothing else (R181, R126). The command is the last parameter byte
of its request, or its whole request (`awaits`: the model's choice, assumption log 10). That the engine
judges at every taken SETTINGS, whether or not it changes the patrol interval, is the model's reading
(assumption log 24). That a change from PULSE to LEVEL ends a running deasserted time too, and not the
pulse alone that R169 names, is the model's choice (assumption log 34). -/
def Obligations.SettingsLockFillMaskAndTime : Prop :=
  ∀ (tag h0 h1 p0 p1 mode print scan interval : Byte) (s : State),
    let h := h0.toNat + 256 * h1.toNat
    let n := p0.toNat + 256 * p1.toNat
    let hold := if 1023 < h then 1023 else h
    let patrol := if n = 0 then 0 else if n < 10 then 10 else n
    let new : Settings := { s.settings with
      holdoff := hold, patrol := patrol
      alertMode := if mode = 0 then .level else .pulse
      printSet := print.setWidth 4, scanSet := scan.setWidth 4, interval := interval.toNat }
    (s.awaits 7 tag →
      (s.lock = true → exec (.settings tag h0 h1 p0 p1 mode print scan interval) s =
        .next (s.answered tag 7 .locked [])) ∧
      (s.lock = false → exec (.settings tag h0 h1 p0 p1 mode print scan interval) s =
        .next (State.answered (State.judge { s with
          settings := new
          alert := if s.settings.alertMode = new.alertMode then s.alert
            else if new.alertMode = .level then
              { asserted := decide (s.faults ≠ []), pendingPulses := 0, timing := .idle }
            else if s.faults = [] then { s.alert with asserted := false }
            else { asserted := false, pendingPulses := 1, timing := .gap s.time } }) tag 7 .ok
          [BitVec.ofNat 8 hold, BitVec.ofNat 8 (hold / 256), BitVec.ofNat 8 patrol,
            BitVec.ofNat 8 (patrol / 256), if mode = 0 then 0 else 1, print &&& 0x0F, scan &&& 0x0F,
            interval]))) ∧
    (s.awaits 8 tag →
      exec (.lock tag) s = .next { s.answered tag 8 .ok [] with lock := true }) ∧
    (s.awaits 9 tag → exec (.fillMask tag h0 h1) s = .next (State.answered
      (State.judge { s with engine := { s.engine with fillMask := h1 ++ h0 } }) tag 9 .ok [])) ∧
    (s.awaits 10 tag → exec (.time tag) s = .next (s.answered tag 10 .ok
      [s.time.setWidth 8, (s.time >>> 8).setWidth 8, (s.time >>> 16).setWidth 8,
        (s.time >>> 24).setWidth 8]))

/-- DOZE in ACTIVE is answered OK and starts doze entry (R182, R185): the read in progress is aborted,
every context discarded, each HASHING segment back to UNSEEN and the others as they were, the gap queue
and transaction record emptied, the cursor set back to a patrolled segment, the deadline disarmed, the
scan gate OFF. With the print gate OFF, or a sequence interval of 0, the entry completes in the same event
(R186); otherwise the gate falls. A DOZE in ENTERING_DOZE changes nothing else (R182). The command is the
last parameter byte of its request, or its whole request (`awaits`: the model's choice, assumption log
10). That the sequence timer remembers a replaced timer's due expiry is the model's own (assumption log
37). -/
def Obligations.DozeStartsDozeEntry : Prop :=
  ∀ (tag : Byte) (s : State), s.awaits 11 tag →
    (s.power.state = .enteringDoze → exec (.doze tag) s = .next (s.answered tag 11 .ok [])) ∧
    (s.power.state = .active → s.poolLaw → s.gateLaw →
      let print := s.gates.print.state
      let falls := print = .falling ∨ ((print = .rising ∨ print = .on) ∧ s.settings.interval ≠ 0)
      let late := match s.gates.timer with
        | none => false
        | some old => decide ((s.time - (old.start + BitVec.ofNat 32 (1000 * old.interval))).toNat < 2 ^ 31) ||
            (old.superseded && decide (old.start = s.time))
      let aborted := fun (p : Port) => if s.engine.read.map (·.port) = some p
        then { s.port p with owner := .nobody, select := false } else s.port p
      ∃ t, exec (.doze tag) s = .next t ∧
        t = { s.answered tag 11 .ok [] with
          power := t.power, segments := t.segments, pool := Pool.afterReset, engine := t.engine
          gates := t.gates, lines := { s.lines with epwr := t.lines.epwr, earm := false, scnen := false }
          transaction := t.transaction, port0 := t.port0, port1 := t.port1 } ∧
        (∀ g, t.segState g =
          if s.segState g = some .hashing then some .unseen else s.segState g) ∧
        t.engine = { s.engine with job := .idle, read := none, cursor := t.engine.cursor } ∧
        (∀ i c, s.pool.context i = some c → c.role = .patrol → t.engine.cursor = c.seg) ∧
        ((∀ i c, s.pool.context i = some c → c.role = .verify) → t.engine.cursor = s.engine.cursor) ∧
        t.gates = { s.gates with
          print := { s.gates.print with state := if falls then .falling else .off }
          scan := { s.gates.scan with state := .off }
          timer := t.gates.timer, deadline := .disarmed } ∧
        (print = .falling → t.gates.timer = s.gates.timer) ∧
        (falls → print ≠ .falling → t.gates.timer = some ⟨s.time, s.settings.interval, late⟩) ∧
        (falls → t.power = { s.power with state := .enteringDoze } ∧ t.lines.epwr = true ∧
          t.transaction = (s.answered tag 11 .ok []).transaction ∧ t.port0 = aborted .p0 ∧
          t.port1 = aborted .p1) ∧
        (¬ falls → t.power = { s.power with state := .doze, fpwr := false } ∧ t.lines.epwr = false ∧
          t.gates.timer = none ∧ t.transaction = none ∧
          t.port0 = { s.port0 with owner := .nobody, select := false, tracked := .three } ∧
          t.port1 = { s.port1 with owner := .nobody, select := false, tracked := .three }))

/-- ADVANCE is answered NOT_READY unless the boot is confirmed and no segment is FAILED (R35); otherwise
the buffer is WORKING and the bits to program are, class by class, the stored difference of each, then
each unblown revocation flag of the revoke mask (R36); with none to program it completes OK at once with
the differences recomputed (R37, R31). The command is the last parameter byte of its request, or its whole
request (`awaits`: the model's choice, assumption log 10). -/
def Obligations.AdvancePlansItsBits : Prop :=
  ∀ (tag : Byte) (s : State) (m : ActiveManifest), s.awaits 12 tag → s.control.manifest = some m →
    let ready := s.control.bootConfirmed = true ∧ ∀ e ∈ s.segments, e.state ≠ .failed
    let row := fun (c : Nat) => List.replicate (s.control.differences.getD c 0).toNat (FuseTarget.row c)
    let flag := fun (i : Nat) => if m.revoke.getLsbD i && !s.fuses.revoked.getLsbD i
      then [FuseTarget.flag i] else []
    let plan := row 0 ++ row 1 ++ row 2 ++ row 3 ++ row 4 ++ row 5 ++ row 6 ++ row 7 ++
      flag 0 ++ flag 1 ++ flag 2 ++ flag 3
    (¬ ready → exec (.advance tag) s = .next (s.answered tag 12 .notReady [])) ∧
    (ready → plan ≠ [] → exec (.advance tag) s = .next { s.answered tag 12 .ok [] with
      buffer := { state := .working, tag := tag, code := 12, status := none, data := [] }
      advance := plan }) ∧
    (ready → plan = [] → exec (.advance tag) s = .next { s.answered tag 12 .ok [] with
      advance := []
      control := { s.control with differences := s.fuses.differences m.versions } })

/-- A bit that reads blown at its verify is blown: the lowest-numbered unblown bit of its row, or its
slot's revocation flag (R36); after the last one the differences are recomputed and the buffer is READY
with OK (R37). A bit that reads unblown ends the operation there, with the other fuses untouched, a
FLOOR_PROGRAM record naming the row or flag, the differences recomputed, and FUSE_FAIL (R38). -/
def Obligations.FuseBitsAreVerifiedOneByOne : Prop :=
  ∀ (s : State) (x : FuseTarget) (rest : List FuseTarget) (m : ActiveManifest) (f : Fuses),
    s.advance = x :: rest → s.control.manifest = some m →
    (∀ slot, x = .flag slot → f = { s.fuses with revoked := s.fuses.revoked ||| BitVec.twoPow 4 slot }) →
    (∀ c, x = .row c → ∃ i, i < 63 ∧ (s.fuses.rows.getD c 0).getLsbD i = false ∧
      (∀ j, j < i → (s.fuses.rows.getD c 0).getLsbD j = true) ∧
      f = { s.fuses with rows := s.fuses.rows.set c (s.fuses.rows.getD c 0 ||| BitVec.twoPow 63 i) }) →
    (rest ≠ [] → exec (.fuseBitVerify true) s = .next { s with fuses := f, advance := rest }) ∧
    (rest = [] → exec (.fuseBitVerify true) s = .next { s with
      fuses := f, advance := []
      control := { s.control with differences := f.differences m.versions }
      buffer := { s.buffer with state := .ready, status := some .ok, data := [] } }) ∧
    (s.control.phase ≠ .halted → exec (.fuseBitVerify false) s = .next { s with
      advance := []
      control := { s.control with differences := s.fuses.differences m.versions }
      faults := pushRecord s.faults ⟨.floorProgram, s.time, s.control.phase, none, none, none,
        match x with | .row c => BitVec.ofNat 8 c | .flag slot => BitVec.ofNat 8 (8 + slot)⟩
      alert := s.alert.push s.settings.alertMode s.time
      buffer := { s.buffer with state := .ready, status := some .fuseFail, data := [] } })

/-! ## Wake (chapter 11) -/

/-- The settle timer's expiry makes RECOVERY ACTIVE with no check (R188); in RUN it starts the WAKE job,
whose three reads follow one another: the identity of port 0, that of port 1, and the active anchor,
header first (R136). Each takes its port whatever the owner was, and gives it at its end to the controller
where the chip select is asserted (R136). That the third read is recorded with a count of 128 bytes is the
model's choice (assumption log 26). After the settle timer's expiry the timebase stands at the due value
(assumption log 2). The identity reads' start address, address lanes and dummy clocks are its choice
(assumption log 42). -/
def Obligations.WakeReadsFollowTheSettleTimer : Prop :=
  ∀ (s : State) (b0 b1 b2 : Byte),
    let identity := fun (p : Port) => (
      { port := p, kind := .wakeIdentity, start := 0, command := 0x9F, commandLanes := .one, sent := [],
        addressLanes := .one, dataLanes := .one, dummy := 0, count := 3 } : FetchRead)
    let left := fun (q : PortState) => ({ q with
      owner := if q.upstream then .passThrough else .nobody, select := false } : PortState)
    (∀ start, s.power.settle = some start → (start + 1000 - s.time).toNat < 2 ^ 31 →
      (s.control.phase = .recovery → exec .settleTimerExpiry s = .next { s with
        time := start + 1000
        power := { s.power with state := .active, settle := none }
        port0 := if s.port0.upstream then { s.port0 with owner := .passThrough } else s.port0
        port1 := if s.port1.upstream then { s.port1 with owner := .passThrough } else s.port1 }) ∧
      (s.control.phase = .run → exec .settleTimerExpiry s = .next { s with
        time := start + 1000
        power := { s.power with settle := none }
        port0 := { s.port0 with owner := .fetch, select := true }
        engine := { s.engine with
          job := .wake, read := some (identity .p0), wake0 := none, wake1 := none } })) ∧
    (∀ r, s.engine.read = some r → r.kind = .wakeIdentity → r.port = .p0 →
      exec (.wakeIdentityReadEnd b0 b1 b2) s = .next { s with
        port0 := left s.port0
        port1 := { s.port1 with owner := .fetch, select := true }
        engine := { s.engine with
          job := .wake, read := some (identity .p1), wake0 := some ⟨b0, b1, b2⟩ } }) ∧
    (∀ r c, s.engine.read = some r → r.kind = .wakeIdentity → r.port = .p1 →
      s.control.context = some c →
      exec (.wakeIdentityReadEnd b0 b1 b2) s = .next { s with
        port0 := { s.port0 with owner := .fetch, select := true }
        port1 := left s.port1
        engine := { s.engine with
          job := .wake, wake1 := some ⟨b0, b1, b2⟩
          read := some (s.fuses.dataRead .p0 .wakeBody (s.fuses.anchorBase c.anchor * 131072) 128) } })

/-- The wake check compares the two identities and, where the body length lies in 128..131008, the digest,
sequence number and key slot with the verification context (R188). With no difference the part is ACTIVE
again, the port back with the controller or NONE, and the gates and the engine act (R189). With one, a
WAKE_MISMATCH record names every item that differed, both latches are set, the part is ACTIVE and enters
RECOVERY with its tables, verdicts and contexts gone, its stored differences 0 and CRST_N as it was (R190,
R161, R147), port 0 back with the controller or NONE with its chip select deasserted, and port 1 with the
controller where its chip select is asserted (R136, R186). That the stopped patrol timer keeps its latched
interval is the model's choice (assumption log 40), as is that the detail's unnamed bits are 0 (assumption
log 35). -/
def Obligations.WakeCheckDecides : Prop :=
  ∀ (bytes : List Byte) (s : State) (r : FetchRead) (c : VerificationContext), s.engine.read = some r →
    r.kind = .wakeBody → r.port = .p0 → s.control.context = some c → s.control.phase = .run →
    s.lines.crst = false →
    let inRange := 128 ≤ field bytes 32 4 ∧ field bytes 32 4 ≤ 131008
    let read := (inRange ∧ bytes.length = field bytes 32 4) ∨ (¬ inRange ∧ bytes.length = 128)
    let body := sha256 bytes = c.digest ∧ field bytes 8 4 = c.sequence ∧ field bytes 5 1 = c.slot
    (read → s.engine.wake0 = some c.identity0 → s.engine.wake1 = some c.identity1 → inRange → body →
      exec (.wakeCheck bytes) s = .next (State.judge (State.settleGates { s with
        power := { s.power with state := .active, settle := none }
        port0 := { s.port0 with
          owner := if s.port0.upstream then .passThrough else .nobody, select := false }
        port1 := if s.port1.upstream then { s.port1 with owner := .passThrough } else s.port1
        engine := { s.engine with job := .idle, read := none, wake0 := none, wake1 := none } }))) ∧
    (∀ detail : Byte, read →
      (detail.getLsbD 0 = true ↔ s.engine.wake0 ≠ some c.identity0) →
      (detail.getLsbD 1 = true ↔ s.engine.wake1 ≠ some c.identity1) →
      (detail.getLsbD 2 = true ↔ inRange ∧ ¬ body) → (detail.getLsbD 3 = true ↔ ¬ inRange) →
      (∀ i, 4 ≤ i → detail.getLsbD i = false) → detail ≠ 0 →
      ∃ t, exec (.wakeCheck bytes) s = .next t ∧ t.control.phase = .recovery ∧
        t.control.context = none ∧ t.control.manifest = none ∧
        t.control.differences = [0, 0, 0, 0, 0, 0, 0, 0] ∧
        t.control.bootConfirmed = s.control.bootConfirmed ∧
        t.faults = pushRecord s.faults ⟨.wakeMismatch, s.time, .run, none, none, none, detail⟩ ∧
        t.alert.asserted = true ∧ t.power = { s.power with state := .active, settle := none } ∧
        t.gates.print = { state := .off, latch := true, mask := 0 } ∧
        t.gates.scan = { state := .off, latch := true, mask := 0 } ∧
        t.gates.deadline = .disarmed ∧ t.settings = Settings.afterReset ∧ t.regions = [] ∧
        t.segments = [] ∧ t.classTable = [] ∧ t.pool = Pool.afterReset ∧ t.engine.job = .idle ∧
        t.engine.read = none ∧ t.engine.cursor = s.engine.cursor ∧ t.engine.timer = { s.engine.timer with start := none } ∧
        t.engine.due = false ∧ t.lines.crst = false ∧
        t.port0 = { s.port0 with
          owner := if s.port0.upstream then .passThrough else .nobody, select := false } ∧
        t.port1 = (if s.port1.upstream then { s.port1 with owner := .passThrough } else s.port1) ∧
        t = { s with
          control := t.control, classTable := [], settings := t.settings, regions := [], segments := []
          pool := t.pool, port0 := t.port0, port1 := t.port1, engine := t.engine, gates := t.gates
          faults := t.faults, alert := t.alert, power := t.power, lines := t.lines })

/-! ## What every step keeps -/

/-- The gate law is kept by every step: the lines follow the gates, and the print gate rises or is ON, and
the scan gate is ON, only in RUN and ACTIVE with every region of its mask proven and its latch clear
(R140, R143). So while EARM is asserted the print gate is ON, the part is in RUN and ACTIVE, EPWR is
asserted, and every segment of every region of the print mask is VERIFIED; and outside RUN all three gate
outputs are deasserted (R143). -/
def Obligations.GateLawIsKeptByEveryStep : Prop :=
  ∀ s t : State, step s = .next t → s.gateLaw → t.gateLaw ∧
    (t.lines.earm = true → t.gates.print.state = .on ∧ t.control.phase = .run ∧
      t.power.state = .active ∧ t.lines.epwr = true ∧
      ∀ i, i < 16 → t.gates.print.mask.getLsbD i = true → ∃ r, t.regions[i]? = some r ∧
        ∀ k, k < r.count → t.segState (r.segmentAt k) = some .verified) ∧
    (t.control.phase ≠ .run →
      t.lines.epwr = false ∧ t.lines.earm = false ∧ t.lines.scnen = false)

/-- The pool law of R96 and R113 is kept by every step: at most six contexts, one PATROL, no segment
twice, fills below 32768, VERIFY contexts on HASHING segments and PATROL contexts on VERIFIED ones, every
HASHING segment in a context, and a gap queue of at most 32 segments, none twice, each UNSEEN or HASHING.
-/
def Obligations.PoolLawIsKeptByEveryStep : Prop :=
  ∀ s t : State, step s = .next t → s.readLaw → s.poolLaw → t.poolLaw

/-- Fuse bits are only ever blown, and only in the rollback rows and the revocation flags (R24); the
settings lock and boot-confirmed, once set, stay set until RESET (R180, R69). -/
def Obligations.FusesLockAndBootOnlyGrow : Prop :=
  ∀ s t : State, step s = .next t → s.fuses.grow t.fuses ∧
    (s.pending.head? ≠ some .reset →
      (s.lock = true → t.lock = true) ∧
        (s.control.bootConfirmed = true → t.control.bootConfirmed = true))

/-- HALTED is left by RESET alone, with the outputs and the idle blocks of R73 and R74 in every state of
it; CRST_N is asserted exactly in HOLD and HALTED (R56, R67); a current read is of its job, in its phase
and power state (R119, R120). -/
def Obligations.HaltedReadAndCrstLawsAreKept : Prop :=
  ∀ s t : State, step s = .next t → s.readLaw → s.haltedLaw → s.crstLaw →
    t.readLaw ∧ t.haltedLaw ∧ t.crstLaw ∧
      (s.control.phase = .halted → s.pending.head? ≠ some .reset → t.control.phase = .halted)

/-- The fault stack holds at most three records, none made in HALTED (R162, R160); ALRT_N follows the
depth in LEVEL mode (R167), the pulses in PULSE mode with a count of at most 15 (R168), and is asserted in
HALTED (R170). That no time of the line runs in LEVEL mode, a deasserted time that ran in PULSE mode before
the change among them, is the model's choice (assumption log 34). -/
def Obligations.FaultAndAlertLawsAreKept : Prop :=
  ∀ s t : State, step s = .next t → s.readLaw → s.haltedLaw → s.faultLaw → s.alertLaw →
    t.faultLaw ∧ t.alertLaw

/-- The laws hold in the state after reset. -/
def Obligations.LawsHoldAtReset : Prop :=
  State.reset.gateLaw ∧ State.reset.poolLaw ∧ State.reset.readLaw ∧ State.reset.haltedLaw ∧
    State.reset.crstLaw ∧ State.reset.faultLaw ∧ State.reset.alertLaw
end

