-- ==== Sys2Proof/Laws/State.lean ====
section
/-! SUPPORT. Beside State: one lemma per field per update, so that no proof unfolds a record update. -/

namespace Sys2Proof.Machine

/-! ### reachTime -/

@[simp] theorem State.reachTime_pending (s : State) (due : Time) :
    (s.reachTime due).pending = s.pending := rfl
@[simp] theorem State.reachTime_fuses (s : State) (due : Time) :
    (s.reachTime due).fuses = s.fuses := rfl
@[simp] theorem State.reachTime_advance (s : State) (due : Time) :
    (s.reachTime due).advance = s.advance := rfl
@[simp] theorem State.reachTime_control (s : State) (due : Time) :
    (s.reachTime due).control = s.control := rfl
@[simp] theorem State.reachTime_classTable (s : State) (due : Time) :
    (s.reachTime due).classTable = s.classTable := rfl
@[simp] theorem State.reachTime_settings (s : State) (due : Time) :
    (s.reachTime due).settings = s.settings := rfl
@[simp] theorem State.reachTime_lock (s : State) (due : Time) :
    (s.reachTime due).lock = s.lock := rfl
@[simp] theorem State.reachTime_port0 (s : State) (due : Time) :
    (s.reachTime due).port0 = s.port0 := rfl
@[simp] theorem State.reachTime_port1 (s : State) (due : Time) :
    (s.reachTime due).port1 = s.port1 := rfl
@[simp] theorem State.reachTime_transaction (s : State) (due : Time) :
    (s.reachTime due).transaction = s.transaction := rfl
@[simp] theorem State.reachTime_delivered (s : State) (due : Time) :
    (s.reachTime due).delivered = s.delivered := rfl
@[simp] theorem State.reachTime_regions (s : State) (due : Time) :
    (s.reachTime due).regions = s.regions := rfl
@[simp] theorem State.reachTime_segments (s : State) (due : Time) :
    (s.reachTime due).segments = s.segments := rfl
@[simp] theorem State.reachTime_pool (s : State) (due : Time) :
    (s.reachTime due).pool = s.pool := rfl
@[simp] theorem State.reachTime_engine (s : State) (due : Time) :
    (s.reachTime due).engine = s.engine := rfl
@[simp] theorem State.reachTime_gates (s : State) (due : Time) :
    (s.reachTime due).gates = s.gates := rfl
@[simp] theorem State.reachTime_faults (s : State) (due : Time) :
    (s.reachTime due).faults = s.faults := rfl
@[simp] theorem State.reachTime_alert (s : State) (due : Time) :
    (s.reachTime due).alert = s.alert := rfl
@[simp] theorem State.reachTime_buffer (s : State) (due : Time) :
    (s.reachTime due).buffer = s.buffer := rfl
@[simp] theorem State.reachTime_power (s : State) (due : Time) :
    (s.reachTime due).power = s.power := rfl
@[simp] theorem State.reachTime_lines (s : State) (due : Time) :
    (s.reachTime due).lines = s.lines := rfl
@[simp] theorem State.reachTime_time (s : State) (due : Time) :
    (s.reachTime due).time = reach due s.time := rfl
@[simp] theorem State.reachTime_drawn (s : State) (due : Time) :
    (s.reachTime due).drawn = s.drawn := rfl

/-! ### putSettings -/

@[simp] theorem State.putSettings_pending (s : State) (t : Settings) :
    (s.putSettings t).pending = s.pending := rfl
@[simp] theorem State.putSettings_fuses (s : State) (t : Settings) :
    (s.putSettings t).fuses = s.fuses := rfl
@[simp] theorem State.putSettings_advance (s : State) (t : Settings) :
    (s.putSettings t).advance = s.advance := rfl
@[simp] theorem State.putSettings_control (s : State) (t : Settings) :
    (s.putSettings t).control = s.control := rfl
@[simp] theorem State.putSettings_classTable (s : State) (t : Settings) :
    (s.putSettings t).classTable = s.classTable := rfl
@[simp] theorem State.putSettings_settings (s : State) (t : Settings) :
    (s.putSettings t).settings = t := rfl
@[simp] theorem State.putSettings_lock (s : State) (t : Settings) :
    (s.putSettings t).lock = s.lock := rfl
@[simp] theorem State.putSettings_port0 (s : State) (t : Settings) :
    (s.putSettings t).port0 = s.port0 := rfl
@[simp] theorem State.putSettings_port1 (s : State) (t : Settings) :
    (s.putSettings t).port1 = s.port1 := rfl
@[simp] theorem State.putSettings_transaction (s : State) (t : Settings) :
    (s.putSettings t).transaction = s.transaction := rfl
@[simp] theorem State.putSettings_delivered (s : State) (t : Settings) :
    (s.putSettings t).delivered = s.delivered := rfl
@[simp] theorem State.putSettings_regions (s : State) (t : Settings) :
    (s.putSettings t).regions = s.regions := rfl
@[simp] theorem State.putSettings_segments (s : State) (t : Settings) :
    (s.putSettings t).segments = s.segments := rfl
@[simp] theorem State.putSettings_pool (s : State) (t : Settings) :
    (s.putSettings t).pool = s.pool := rfl
@[simp] theorem State.putSettings_engine (s : State) (t : Settings) :
    (s.putSettings t).engine = s.engine := rfl
@[simp] theorem State.putSettings_gates (s : State) (t : Settings) :
    (s.putSettings t).gates = s.gates := rfl
@[simp] theorem State.putSettings_faults (s : State) (t : Settings) :
    (s.putSettings t).faults = s.faults := rfl
@[simp] theorem State.putSettings_alert (s : State) (t : Settings) :
    (s.putSettings t).alert = s.alert.changeMode s.settings.alertMode t.alertMode s.faults.length s.time := rfl
@[simp] theorem State.putSettings_buffer (s : State) (t : Settings) :
    (s.putSettings t).buffer = s.buffer := rfl
@[simp] theorem State.putSettings_power (s : State) (t : Settings) :
    (s.putSettings t).power = s.power := rfl
@[simp] theorem State.putSettings_lines (s : State) (t : Settings) :
    (s.putSettings t).lines = s.lines := rfl
@[simp] theorem State.putSettings_time (s : State) (t : Settings) :
    (s.putSettings t).time = s.time := rfl
@[simp] theorem State.putSettings_drawn (s : State) (t : Settings) :
    (s.putSettings t).drawn = s.drawn := rfl

/-! ### startPatrolTimer -/

@[simp] theorem State.startPatrolTimer_pending (s : State) :
    (s.startPatrolTimer).pending = s.pending := rfl
@[simp] theorem State.startPatrolTimer_fuses (s : State) :
    (s.startPatrolTimer).fuses = s.fuses := rfl
@[simp] theorem State.startPatrolTimer_advance (s : State) :
    (s.startPatrolTimer).advance = s.advance := rfl
@[simp] theorem State.startPatrolTimer_control (s : State) :
    (s.startPatrolTimer).control = s.control := rfl
@[simp] theorem State.startPatrolTimer_classTable (s : State) :
    (s.startPatrolTimer).classTable = s.classTable := rfl
@[simp] theorem State.startPatrolTimer_settings (s : State) :
    (s.startPatrolTimer).settings = s.settings := rfl
@[simp] theorem State.startPatrolTimer_lock (s : State) : (s.startPatrolTimer).lock = s.lock := rfl
@[simp] theorem State.startPatrolTimer_port0 (s : State) :
    (s.startPatrolTimer).port0 = s.port0 := rfl
@[simp] theorem State.startPatrolTimer_port1 (s : State) :
    (s.startPatrolTimer).port1 = s.port1 := rfl
@[simp] theorem State.startPatrolTimer_transaction (s : State) :
    (s.startPatrolTimer).transaction = s.transaction := rfl
@[simp] theorem State.startPatrolTimer_delivered (s : State) :
    (s.startPatrolTimer).delivered = s.delivered := rfl
@[simp] theorem State.startPatrolTimer_regions (s : State) :
    (s.startPatrolTimer).regions = s.regions := rfl
@[simp] theorem State.startPatrolTimer_segments (s : State) :
    (s.startPatrolTimer).segments = s.segments := rfl
@[simp] theorem State.startPatrolTimer_pool (s : State) : (s.startPatrolTimer).pool = s.pool := rfl
@[simp] theorem State.startPatrolTimer_engine (s : State) :
    (s.startPatrolTimer).engine = { s.engine with
      timer := { start := if s.settings.patrol = 0 then none else some s.time,
                 interval := s.settings.patrol }
      due := decide (s.settings.patrol = 0) } := rfl
@[simp] theorem State.startPatrolTimer_gates (s : State) :
    (s.startPatrolTimer).gates = s.gates := rfl
@[simp] theorem State.startPatrolTimer_faults (s : State) :
    (s.startPatrolTimer).faults = s.faults := rfl
@[simp] theorem State.startPatrolTimer_alert (s : State) :
    (s.startPatrolTimer).alert = s.alert := rfl
@[simp] theorem State.startPatrolTimer_buffer (s : State) :
    (s.startPatrolTimer).buffer = s.buffer := rfl
@[simp] theorem State.startPatrolTimer_power (s : State) :
    (s.startPatrolTimer).power = s.power := rfl
@[simp] theorem State.startPatrolTimer_lines (s : State) :
    (s.startPatrolTimer).lines = s.lines := rfl
@[simp] theorem State.startPatrolTimer_time (s : State) : (s.startPatrolTimer).time = s.time := rfl
@[simp] theorem State.startPatrolTimer_drawn (s : State) :
    (s.startPatrolTimer).drawn = s.drawn := rfl

/-! ### setPrint -/

@[simp] theorem State.setPrint_pending (s : State) (st : GateState) (t : Option SequenceTimer) :
    (s.setPrint st t).pending = s.pending := rfl
@[simp] theorem State.setPrint_fuses (s : State) (st : GateState) (t : Option SequenceTimer) :
    (s.setPrint st t).fuses = s.fuses := rfl
@[simp] theorem State.setPrint_advance (s : State) (st : GateState) (t : Option SequenceTimer) :
    (s.setPrint st t).advance = s.advance := rfl
@[simp] theorem State.setPrint_control (s : State) (st : GateState) (t : Option SequenceTimer) :
    (s.setPrint st t).control = s.control := rfl
@[simp] theorem State.setPrint_classTable (s : State) (st : GateState) (t : Option SequenceTimer) :
    (s.setPrint st t).classTable = s.classTable := rfl
@[simp] theorem State.setPrint_settings (s : State) (st : GateState) (t : Option SequenceTimer) :
    (s.setPrint st t).settings = s.settings := rfl
@[simp] theorem State.setPrint_lock (s : State) (st : GateState) (t : Option SequenceTimer) :
    (s.setPrint st t).lock = s.lock := rfl
@[simp] theorem State.setPrint_port0 (s : State) (st : GateState) (t : Option SequenceTimer) :
    (s.setPrint st t).port0 = s.port0 := rfl
@[simp] theorem State.setPrint_port1 (s : State) (st : GateState) (t : Option SequenceTimer) :
    (s.setPrint st t).port1 = s.port1 := rfl
@[simp] theorem State.setPrint_transaction (s : State) (st : GateState) (t : Option SequenceTimer) :
    (s.setPrint st t).transaction = s.transaction := rfl
@[simp] theorem State.setPrint_delivered (s : State) (st : GateState) (t : Option SequenceTimer) :
    (s.setPrint st t).delivered = s.delivered := rfl
@[simp] theorem State.setPrint_regions (s : State) (st : GateState) (t : Option SequenceTimer) :
    (s.setPrint st t).regions = s.regions := rfl
@[simp] theorem State.setPrint_segments (s : State) (st : GateState) (t : Option SequenceTimer) :
    (s.setPrint st t).segments = s.segments := rfl
@[simp] theorem State.setPrint_pool (s : State) (st : GateState) (t : Option SequenceTimer) :
    (s.setPrint st t).pool = s.pool := rfl
@[simp] theorem State.setPrint_engine (s : State) (st : GateState) (t : Option SequenceTimer) :
    (s.setPrint st t).engine = s.engine := rfl
@[simp] theorem State.setPrint_gates (s : State) (st : GateState) (t : Option SequenceTimer) :
    (s.setPrint st t).gates = { s.gates with print := { s.gates.print with state := st }, timer := t } := rfl
@[simp] theorem State.setPrint_faults (s : State) (st : GateState) (t : Option SequenceTimer) :
    (s.setPrint st t).faults = s.faults := rfl
@[simp] theorem State.setPrint_alert (s : State) (st : GateState) (t : Option SequenceTimer) :
    (s.setPrint st t).alert = s.alert := rfl
@[simp] theorem State.setPrint_buffer (s : State) (st : GateState) (t : Option SequenceTimer) :
    (s.setPrint st t).buffer = s.buffer := rfl
@[simp] theorem State.setPrint_power (s : State) (st : GateState) (t : Option SequenceTimer) :
    (s.setPrint st t).power = s.power := rfl
@[simp] theorem State.setPrint_lines (s : State) (st : GateState) (t : Option SequenceTimer) :
    (s.setPrint st t).lines = { s.lines with epwr := st.powers, earm := st.arms } := rfl
@[simp] theorem State.setPrint_time (s : State) (st : GateState) (t : Option SequenceTimer) :
    (s.setPrint st t).time = s.time := rfl
@[simp] theorem State.setPrint_drawn (s : State) (st : GateState) (t : Option SequenceTimer) :
    (s.setPrint st t).drawn = s.drawn := rfl

/-! ### setScan -/

@[simp] theorem State.setScan_pending (s : State) (st : GateState) :
    (s.setScan st).pending = s.pending := rfl
@[simp] theorem State.setScan_fuses (s : State) (st : GateState) :
    (s.setScan st).fuses = s.fuses := rfl
@[simp] theorem State.setScan_advance (s : State) (st : GateState) :
    (s.setScan st).advance = s.advance := rfl
@[simp] theorem State.setScan_control (s : State) (st : GateState) :
    (s.setScan st).control = s.control := rfl
@[simp] theorem State.setScan_classTable (s : State) (st : GateState) :
    (s.setScan st).classTable = s.classTable := rfl
@[simp] theorem State.setScan_settings (s : State) (st : GateState) :
    (s.setScan st).settings = s.settings := rfl
@[simp] theorem State.setScan_lock (s : State) (st : GateState) :
    (s.setScan st).lock = s.lock := rfl
@[simp] theorem State.setScan_port0 (s : State) (st : GateState) :
    (s.setScan st).port0 = s.port0 := rfl
@[simp] theorem State.setScan_port1 (s : State) (st : GateState) :
    (s.setScan st).port1 = s.port1 := rfl
@[simp] theorem State.setScan_transaction (s : State) (st : GateState) :
    (s.setScan st).transaction = s.transaction := rfl
@[simp] theorem State.setScan_delivered (s : State) (st : GateState) :
    (s.setScan st).delivered = s.delivered := rfl
@[simp] theorem State.setScan_regions (s : State) (st : GateState) :
    (s.setScan st).regions = s.regions := rfl
@[simp] theorem State.setScan_segments (s : State) (st : GateState) :
    (s.setScan st).segments = s.segments := rfl
@[simp] theorem State.setScan_pool (s : State) (st : GateState) :
    (s.setScan st).pool = s.pool := rfl
@[simp] theorem State.setScan_engine (s : State) (st : GateState) :
    (s.setScan st).engine = s.engine := rfl
@[simp] theorem State.setScan_gates (s : State) (st : GateState) :
    (s.setScan st).gates = { s.gates with scan := { s.gates.scan with state := st } } := rfl
@[simp] theorem State.setScan_faults (s : State) (st : GateState) :
    (s.setScan st).faults = s.faults := rfl
@[simp] theorem State.setScan_alert (s : State) (st : GateState) :
    (s.setScan st).alert = s.alert := rfl
@[simp] theorem State.setScan_buffer (s : State) (st : GateState) :
    (s.setScan st).buffer = s.buffer := rfl
@[simp] theorem State.setScan_power (s : State) (st : GateState) :
    (s.setScan st).power = s.power := rfl
@[simp] theorem State.setScan_lines (s : State) (st : GateState) :
    (s.setScan st).lines = { s.lines with scnen := st.arms } := rfl
@[simp] theorem State.setScan_time (s : State) (st : GateState) :
    (s.setScan st).time = s.time := rfl
@[simp] theorem State.setScan_drawn (s : State) (st : GateState) :
    (s.setScan st).drawn = s.drawn := rfl

/-! ### disarm -/

@[simp] theorem State.disarm_pending (s : State) : (s.disarm).pending = s.pending := rfl
@[simp] theorem State.disarm_fuses (s : State) : (s.disarm).fuses = s.fuses := rfl
@[simp] theorem State.disarm_advance (s : State) : (s.disarm).advance = s.advance := rfl
@[simp] theorem State.disarm_control (s : State) : (s.disarm).control = s.control := rfl
@[simp] theorem State.disarm_classTable (s : State) : (s.disarm).classTable = s.classTable := rfl
@[simp] theorem State.disarm_settings (s : State) : (s.disarm).settings = s.settings := rfl
@[simp] theorem State.disarm_lock (s : State) : (s.disarm).lock = s.lock := rfl
@[simp] theorem State.disarm_port0 (s : State) : (s.disarm).port0 = s.port0 := rfl
@[simp] theorem State.disarm_port1 (s : State) : (s.disarm).port1 = s.port1 := rfl
@[simp] theorem State.disarm_transaction (s : State) : (s.disarm).transaction = s.transaction := rfl
@[simp] theorem State.disarm_delivered (s : State) : (s.disarm).delivered = s.delivered := rfl
@[simp] theorem State.disarm_regions (s : State) : (s.disarm).regions = s.regions := rfl
@[simp] theorem State.disarm_segments (s : State) : (s.disarm).segments = s.segments := rfl
@[simp] theorem State.disarm_pool (s : State) : (s.disarm).pool = s.pool := rfl
@[simp] theorem State.disarm_engine (s : State) : (s.disarm).engine = s.engine := rfl
@[simp] theorem State.disarm_gates (s : State) :
    (s.disarm).gates = { s.gates with deadline := .disarmed } := rfl
@[simp] theorem State.disarm_faults (s : State) : (s.disarm).faults = s.faults := rfl
@[simp] theorem State.disarm_alert (s : State) : (s.disarm).alert = s.alert := rfl
@[simp] theorem State.disarm_buffer (s : State) : (s.disarm).buffer = s.buffer := rfl
@[simp] theorem State.disarm_power (s : State) : (s.disarm).power = s.power := rfl
@[simp] theorem State.disarm_lines (s : State) : (s.disarm).lines = s.lines := rfl
@[simp] theorem State.disarm_time (s : State) : (s.disarm).time = s.time := rfl
@[simp] theorem State.disarm_drawn (s : State) : (s.disarm).drawn = s.drawn := rfl

/-! ### gatesOff -/

@[simp] theorem State.gatesOff_pending (s : State) : (s.gatesOff).pending = s.pending := rfl
@[simp] theorem State.gatesOff_fuses (s : State) : (s.gatesOff).fuses = s.fuses := rfl
@[simp] theorem State.gatesOff_advance (s : State) : (s.gatesOff).advance = s.advance := rfl
@[simp] theorem State.gatesOff_control (s : State) : (s.gatesOff).control = s.control := rfl
@[simp] theorem State.gatesOff_classTable (s : State) :
    (s.gatesOff).classTable = s.classTable := rfl
@[simp] theorem State.gatesOff_settings (s : State) : (s.gatesOff).settings = s.settings := rfl
@[simp] theorem State.gatesOff_lock (s : State) : (s.gatesOff).lock = s.lock := rfl
@[simp] theorem State.gatesOff_port0 (s : State) : (s.gatesOff).port0 = s.port0 := rfl
@[simp] theorem State.gatesOff_port1 (s : State) : (s.gatesOff).port1 = s.port1 := rfl
@[simp] theorem State.gatesOff_transaction (s : State) :
    (s.gatesOff).transaction = s.transaction := rfl
@[simp] theorem State.gatesOff_delivered (s : State) : (s.gatesOff).delivered = s.delivered := rfl
@[simp] theorem State.gatesOff_regions (s : State) : (s.gatesOff).regions = s.regions := rfl
@[simp] theorem State.gatesOff_segments (s : State) : (s.gatesOff).segments = s.segments := rfl
@[simp] theorem State.gatesOff_pool (s : State) : (s.gatesOff).pool = s.pool := rfl
@[simp] theorem State.gatesOff_engine (s : State) : (s.gatesOff).engine = s.engine := rfl
@[simp] theorem State.gatesOff_faults (s : State) : (s.gatesOff).faults = s.faults := rfl
@[simp] theorem State.gatesOff_alert (s : State) : (s.gatesOff).alert = s.alert := rfl
@[simp] theorem State.gatesOff_buffer (s : State) : (s.gatesOff).buffer = s.buffer := rfl
@[simp] theorem State.gatesOff_power (s : State) : (s.gatesOff).power = s.power := rfl
@[simp] theorem State.gatesOff_time (s : State) : (s.gatesOff).time = s.time := rfl
@[simp] theorem State.gatesOff_drawn (s : State) : (s.gatesOff).drawn = s.drawn := rfl

/-! ### latchGates -/

@[simp] theorem State.latchGates_pending (s : State) (print scan : Bool) :
    (s.latchGates print scan).pending = s.pending := rfl
@[simp] theorem State.latchGates_fuses (s : State) (print scan : Bool) :
    (s.latchGates print scan).fuses = s.fuses := rfl
@[simp] theorem State.latchGates_advance (s : State) (print scan : Bool) :
    (s.latchGates print scan).advance = s.advance := rfl
@[simp] theorem State.latchGates_control (s : State) (print scan : Bool) :
    (s.latchGates print scan).control = s.control := rfl
@[simp] theorem State.latchGates_classTable (s : State) (print scan : Bool) :
    (s.latchGates print scan).classTable = s.classTable := rfl
@[simp] theorem State.latchGates_settings (s : State) (print scan : Bool) :
    (s.latchGates print scan).settings = s.settings := rfl
@[simp] theorem State.latchGates_lock (s : State) (print scan : Bool) :
    (s.latchGates print scan).lock = s.lock := rfl
@[simp] theorem State.latchGates_port0 (s : State) (print scan : Bool) :
    (s.latchGates print scan).port0 = s.port0 := rfl
@[simp] theorem State.latchGates_port1 (s : State) (print scan : Bool) :
    (s.latchGates print scan).port1 = s.port1 := rfl
@[simp] theorem State.latchGates_transaction (s : State) (print scan : Bool) :
    (s.latchGates print scan).transaction = s.transaction := rfl
@[simp] theorem State.latchGates_delivered (s : State) (print scan : Bool) :
    (s.latchGates print scan).delivered = s.delivered := rfl
@[simp] theorem State.latchGates_regions (s : State) (print scan : Bool) :
    (s.latchGates print scan).regions = s.regions := rfl
@[simp] theorem State.latchGates_segments (s : State) (print scan : Bool) :
    (s.latchGates print scan).segments = s.segments := rfl
@[simp] theorem State.latchGates_pool (s : State) (print scan : Bool) :
    (s.latchGates print scan).pool = s.pool := rfl
@[simp] theorem State.latchGates_engine (s : State) (print scan : Bool) :
    (s.latchGates print scan).engine = s.engine := rfl
@[simp] theorem State.latchGates_gates (s : State) (print scan : Bool) :
    (s.latchGates print scan).gates = { s.gates with
      print := { s.gates.print with latch := s.gates.print.latch || print }
      scan := { s.gates.scan with latch := s.gates.scan.latch || scan } } := rfl
@[simp] theorem State.latchGates_faults (s : State) (print scan : Bool) :
    (s.latchGates print scan).faults = s.faults := rfl
@[simp] theorem State.latchGates_alert (s : State) (print scan : Bool) :
    (s.latchGates print scan).alert = s.alert := rfl
@[simp] theorem State.latchGates_buffer (s : State) (print scan : Bool) :
    (s.latchGates print scan).buffer = s.buffer := rfl
@[simp] theorem State.latchGates_power (s : State) (print scan : Bool) :
    (s.latchGates print scan).power = s.power := rfl
@[simp] theorem State.latchGates_lines (s : State) (print scan : Bool) :
    (s.latchGates print scan).lines = s.lines := rfl
@[simp] theorem State.latchGates_time (s : State) (print scan : Bool) :
    (s.latchGates print scan).time = s.time := rfl
@[simp] theorem State.latchGates_drawn (s : State) (print scan : Bool) :
    (s.latchGates print scan).drawn = s.drawn := rfl

/-! ### raise -/

@[simp] theorem State.raise_pending (s : State) (t : Trigger) :
    (s.raise t).pending = s.pending := rfl
@[simp] theorem State.raise_fuses (s : State) (t : Trigger) : (s.raise t).fuses = s.fuses := rfl
@[simp] theorem State.raise_advance (s : State) (t : Trigger) :
    (s.raise t).advance = s.advance := rfl
@[simp] theorem State.raise_control (s : State) (t : Trigger) :
    (s.raise t).control = s.control := rfl
@[simp] theorem State.raise_classTable (s : State) (t : Trigger) :
    (s.raise t).classTable = s.classTable := rfl
@[simp] theorem State.raise_settings (s : State) (t : Trigger) :
    (s.raise t).settings = s.settings := rfl
@[simp] theorem State.raise_lock (s : State) (t : Trigger) : (s.raise t).lock = s.lock := rfl
@[simp] theorem State.raise_port0 (s : State) (t : Trigger) : (s.raise t).port0 = s.port0 := rfl
@[simp] theorem State.raise_port1 (s : State) (t : Trigger) : (s.raise t).port1 = s.port1 := rfl
@[simp] theorem State.raise_transaction (s : State) (t : Trigger) :
    (s.raise t).transaction = s.transaction := rfl
@[simp] theorem State.raise_delivered (s : State) (t : Trigger) :
    (s.raise t).delivered = s.delivered := rfl
@[simp] theorem State.raise_regions (s : State) (t : Trigger) :
    (s.raise t).regions = s.regions := rfl
@[simp] theorem State.raise_segments (s : State) (t : Trigger) :
    (s.raise t).segments = s.segments := rfl
@[simp] theorem State.raise_pool (s : State) (t : Trigger) : (s.raise t).pool = s.pool := rfl
@[simp] theorem State.raise_engine (s : State) (t : Trigger) : (s.raise t).engine = s.engine := rfl
@[simp] theorem State.raise_faults (s : State) (t : Trigger) : (s.raise t).faults = s.faults := rfl
@[simp] theorem State.raise_alert (s : State) (t : Trigger) : (s.raise t).alert = s.alert := rfl
@[simp] theorem State.raise_buffer (s : State) (t : Trigger) : (s.raise t).buffer = s.buffer := rfl
@[simp] theorem State.raise_power (s : State) (t : Trigger) : (s.raise t).power = s.power := rfl
@[simp] theorem State.raise_lines (s : State) (t : Trigger) : (s.raise t).lines = s.lines := rfl
@[simp] theorem State.raise_time (s : State) (t : Trigger) : (s.raise t).time = s.time := rfl
@[simp] theorem State.raise_drawn (s : State) (t : Trigger) : (s.raise t).drawn = s.drawn := rfl

/-! ### tripRegion -/

@[simp] theorem State.tripRegion_pending (s : State) (i : Nat) :
    (s.tripRegion i).pending = s.pending := rfl
@[simp] theorem State.tripRegion_fuses (s : State) (i : Nat) :
    (s.tripRegion i).fuses = s.fuses := rfl
@[simp] theorem State.tripRegion_advance (s : State) (i : Nat) :
    (s.tripRegion i).advance = s.advance := rfl
@[simp] theorem State.tripRegion_control (s : State) (i : Nat) :
    (s.tripRegion i).control = s.control := rfl
@[simp] theorem State.tripRegion_classTable (s : State) (i : Nat) :
    (s.tripRegion i).classTable = s.classTable := rfl
@[simp] theorem State.tripRegion_settings (s : State) (i : Nat) :
    (s.tripRegion i).settings = s.settings := rfl
@[simp] theorem State.tripRegion_lock (s : State) (i : Nat) : (s.tripRegion i).lock = s.lock := rfl
@[simp] theorem State.tripRegion_port0 (s : State) (i : Nat) :
    (s.tripRegion i).port0 = s.port0 := rfl
@[simp] theorem State.tripRegion_port1 (s : State) (i : Nat) :
    (s.tripRegion i).port1 = s.port1 := rfl
@[simp] theorem State.tripRegion_transaction (s : State) (i : Nat) :
    (s.tripRegion i).transaction = s.transaction := rfl
@[simp] theorem State.tripRegion_delivered (s : State) (i : Nat) :
    (s.tripRegion i).delivered = s.delivered := rfl
@[simp] theorem State.tripRegion_regions (s : State) (i : Nat) :
    (s.tripRegion i).regions = s.regions := rfl
@[simp] theorem State.tripRegion_segments (s : State) (i : Nat) :
    (s.tripRegion i).segments = s.segments := rfl
@[simp] theorem State.tripRegion_pool (s : State) (i : Nat) : (s.tripRegion i).pool = s.pool := rfl
@[simp] theorem State.tripRegion_engine (s : State) (i : Nat) :
    (s.tripRegion i).engine = s.engine := rfl
@[simp] theorem State.tripRegion_faults (s : State) (i : Nat) :
    (s.tripRegion i).faults = s.faults := rfl
@[simp] theorem State.tripRegion_alert (s : State) (i : Nat) :
    (s.tripRegion i).alert = s.alert := rfl
@[simp] theorem State.tripRegion_buffer (s : State) (i : Nat) :
    (s.tripRegion i).buffer = s.buffer := rfl
@[simp] theorem State.tripRegion_power (s : State) (i : Nat) :
    (s.tripRegion i).power = s.power := rfl
@[simp] theorem State.tripRegion_lines (s : State) (i : Nat) :
    (s.tripRegion i).lines = s.lines := rfl
@[simp] theorem State.tripRegion_time (s : State) (i : Nat) : (s.tripRegion i).time = s.time := rfl
@[simp] theorem State.tripRegion_drawn (s : State) (i : Nat) :
    (s.tripRegion i).drawn = s.drawn := rfl

/-! ### clearLatches -/

@[simp] theorem State.clearLatches_pending (s : State) (print scan : Bool) :
    (s.clearLatches print scan).pending = s.pending := rfl
@[simp] theorem State.clearLatches_fuses (s : State) (print scan : Bool) :
    (s.clearLatches print scan).fuses = s.fuses := rfl
@[simp] theorem State.clearLatches_advance (s : State) (print scan : Bool) :
    (s.clearLatches print scan).advance = s.advance := rfl
@[simp] theorem State.clearLatches_control (s : State) (print scan : Bool) :
    (s.clearLatches print scan).control = s.control := rfl
@[simp] theorem State.clearLatches_classTable (s : State) (print scan : Bool) :
    (s.clearLatches print scan).classTable = s.classTable := rfl
@[simp] theorem State.clearLatches_settings (s : State) (print scan : Bool) :
    (s.clearLatches print scan).settings = s.settings := rfl
@[simp] theorem State.clearLatches_lock (s : State) (print scan : Bool) :
    (s.clearLatches print scan).lock = s.lock := rfl
@[simp] theorem State.clearLatches_port0 (s : State) (print scan : Bool) :
    (s.clearLatches print scan).port0 = s.port0 := rfl
@[simp] theorem State.clearLatches_port1 (s : State) (print scan : Bool) :
    (s.clearLatches print scan).port1 = s.port1 := rfl
@[simp] theorem State.clearLatches_transaction (s : State) (print scan : Bool) :
    (s.clearLatches print scan).transaction = s.transaction := rfl
@[simp] theorem State.clearLatches_delivered (s : State) (print scan : Bool) :
    (s.clearLatches print scan).delivered = s.delivered := rfl
@[simp] theorem State.clearLatches_regions (s : State) (print scan : Bool) :
    (s.clearLatches print scan).regions = s.regions := rfl
@[simp] theorem State.clearLatches_segments (s : State) (print scan : Bool) :
    (s.clearLatches print scan).segments = s.segments := rfl
@[simp] theorem State.clearLatches_pool (s : State) (print scan : Bool) :
    (s.clearLatches print scan).pool = s.pool := rfl
@[simp] theorem State.clearLatches_engine (s : State) (print scan : Bool) :
    (s.clearLatches print scan).engine = s.engine := rfl
@[simp] theorem State.clearLatches_faults (s : State) (print scan : Bool) :
    (s.clearLatches print scan).faults = s.faults := rfl
@[simp] theorem State.clearLatches_alert (s : State) (print scan : Bool) :
    (s.clearLatches print scan).alert = s.alert := rfl
@[simp] theorem State.clearLatches_buffer (s : State) (print scan : Bool) :
    (s.clearLatches print scan).buffer = s.buffer := rfl
@[simp] theorem State.clearLatches_power (s : State) (print scan : Bool) :
    (s.clearLatches print scan).power = s.power := rfl
@[simp] theorem State.clearLatches_lines (s : State) (print scan : Bool) :
    (s.clearLatches print scan).lines = s.lines := rfl
@[simp] theorem State.clearLatches_time (s : State) (print scan : Bool) :
    (s.clearLatches print scan).time = s.time := rfl
@[simp] theorem State.clearLatches_drawn (s : State) (print scan : Bool) :
    (s.clearLatches print scan).drawn = s.drawn := rfl

/-! ### setSegState -/

@[simp] theorem State.setSegState_pending (s : State) (g : Nat) (st : SegState) :
    (s.setSegState g st).pending = s.pending := rfl
@[simp] theorem State.setSegState_fuses (s : State) (g : Nat) (st : SegState) :
    (s.setSegState g st).fuses = s.fuses := rfl
@[simp] theorem State.setSegState_advance (s : State) (g : Nat) (st : SegState) :
    (s.setSegState g st).advance = s.advance := rfl
@[simp] theorem State.setSegState_control (s : State) (g : Nat) (st : SegState) :
    (s.setSegState g st).control = s.control := rfl
@[simp] theorem State.setSegState_classTable (s : State) (g : Nat) (st : SegState) :
    (s.setSegState g st).classTable = s.classTable := rfl
@[simp] theorem State.setSegState_settings (s : State) (g : Nat) (st : SegState) :
    (s.setSegState g st).settings = s.settings := rfl
@[simp] theorem State.setSegState_lock (s : State) (g : Nat) (st : SegState) :
    (s.setSegState g st).lock = s.lock := rfl
@[simp] theorem State.setSegState_port0 (s : State) (g : Nat) (st : SegState) :
    (s.setSegState g st).port0 = s.port0 := rfl
@[simp] theorem State.setSegState_port1 (s : State) (g : Nat) (st : SegState) :
    (s.setSegState g st).port1 = s.port1 := rfl
@[simp] theorem State.setSegState_transaction (s : State) (g : Nat) (st : SegState) :
    (s.setSegState g st).transaction = s.transaction := rfl
@[simp] theorem State.setSegState_delivered (s : State) (g : Nat) (st : SegState) :
    (s.setSegState g st).delivered = s.delivered := rfl
@[simp] theorem State.setSegState_regions (s : State) (g : Nat) (st : SegState) :
    (s.setSegState g st).regions = s.regions := rfl
@[simp] theorem State.setSegState_segments (s : State) (g : Nat) (st : SegState) :
    (s.setSegState g st).segments = s.segments.map (fun e => if e.seg = g then { e with state := st } else e) := rfl
@[simp] theorem State.setSegState_pool (s : State) (g : Nat) (st : SegState) :
    (s.setSegState g st).pool = s.pool := rfl
@[simp] theorem State.setSegState_engine (s : State) (g : Nat) (st : SegState) :
    (s.setSegState g st).engine = s.engine := rfl
@[simp] theorem State.setSegState_gates (s : State) (g : Nat) (st : SegState) :
    (s.setSegState g st).gates = s.gates := rfl
@[simp] theorem State.setSegState_faults (s : State) (g : Nat) (st : SegState) :
    (s.setSegState g st).faults = s.faults := rfl
@[simp] theorem State.setSegState_alert (s : State) (g : Nat) (st : SegState) :
    (s.setSegState g st).alert = s.alert := rfl
@[simp] theorem State.setSegState_buffer (s : State) (g : Nat) (st : SegState) :
    (s.setSegState g st).buffer = s.buffer := rfl
@[simp] theorem State.setSegState_power (s : State) (g : Nat) (st : SegState) :
    (s.setSegState g st).power = s.power := rfl
@[simp] theorem State.setSegState_lines (s : State) (g : Nat) (st : SegState) :
    (s.setSegState g st).lines = s.lines := rfl
@[simp] theorem State.setSegState_time (s : State) (g : Nat) (st : SegState) :
    (s.setSegState g st).time = s.time := rfl
@[simp] theorem State.setSegState_drawn (s : State) (g : Nat) (st : SegState) :
    (s.setSegState g st).drawn = s.drawn := rfl

/-! ### setSlot -/

@[simp] theorem State.setSlot_pending (s : State) (i : Nat) (c : Option Context) :
    (s.setSlot i c).pending = s.pending := rfl
@[simp] theorem State.setSlot_fuses (s : State) (i : Nat) (c : Option Context) :
    (s.setSlot i c).fuses = s.fuses := rfl
@[simp] theorem State.setSlot_advance (s : State) (i : Nat) (c : Option Context) :
    (s.setSlot i c).advance = s.advance := rfl
@[simp] theorem State.setSlot_control (s : State) (i : Nat) (c : Option Context) :
    (s.setSlot i c).control = s.control := rfl
@[simp] theorem State.setSlot_classTable (s : State) (i : Nat) (c : Option Context) :
    (s.setSlot i c).classTable = s.classTable := rfl
@[simp] theorem State.setSlot_settings (s : State) (i : Nat) (c : Option Context) :
    (s.setSlot i c).settings = s.settings := rfl
@[simp] theorem State.setSlot_lock (s : State) (i : Nat) (c : Option Context) :
    (s.setSlot i c).lock = s.lock := rfl
@[simp] theorem State.setSlot_port0 (s : State) (i : Nat) (c : Option Context) :
    (s.setSlot i c).port0 = s.port0 := rfl
@[simp] theorem State.setSlot_port1 (s : State) (i : Nat) (c : Option Context) :
    (s.setSlot i c).port1 = s.port1 := rfl
@[simp] theorem State.setSlot_transaction (s : State) (i : Nat) (c : Option Context) :
    (s.setSlot i c).transaction = s.transaction := rfl
@[simp] theorem State.setSlot_delivered (s : State) (i : Nat) (c : Option Context) :
    (s.setSlot i c).delivered = s.delivered := rfl
@[simp] theorem State.setSlot_regions (s : State) (i : Nat) (c : Option Context) :
    (s.setSlot i c).regions = s.regions := rfl
@[simp] theorem State.setSlot_segments (s : State) (i : Nat) (c : Option Context) :
    (s.setSlot i c).segments = s.segments := rfl
@[simp] theorem State.setSlot_pool (s : State) (i : Nat) (c : Option Context) :
    (s.setSlot i c).pool = { s.pool with slots := s.pool.slots.set i c } := rfl
@[simp] theorem State.setSlot_engine (s : State) (i : Nat) (c : Option Context) :
    (s.setSlot i c).engine = s.engine := rfl
@[simp] theorem State.setSlot_gates (s : State) (i : Nat) (c : Option Context) :
    (s.setSlot i c).gates = s.gates := rfl
@[simp] theorem State.setSlot_faults (s : State) (i : Nat) (c : Option Context) :
    (s.setSlot i c).faults = s.faults := rfl
@[simp] theorem State.setSlot_alert (s : State) (i : Nat) (c : Option Context) :
    (s.setSlot i c).alert = s.alert := rfl
@[simp] theorem State.setSlot_buffer (s : State) (i : Nat) (c : Option Context) :
    (s.setSlot i c).buffer = s.buffer := rfl
@[simp] theorem State.setSlot_power (s : State) (i : Nat) (c : Option Context) :
    (s.setSlot i c).power = s.power := rfl
@[simp] theorem State.setSlot_lines (s : State) (i : Nat) (c : Option Context) :
    (s.setSlot i c).lines = s.lines := rfl
@[simp] theorem State.setSlot_time (s : State) (i : Nat) (c : Option Context) :
    (s.setSlot i c).time = s.time := rfl
@[simp] theorem State.setSlot_drawn (s : State) (i : Nat) (c : Option Context) :
    (s.setSlot i c).drawn = s.drawn := rfl

/-! ### purgeGap -/

@[simp] theorem State.purgeGap_pending (s : State) (g : Nat) :
    (s.purgeGap g).pending = s.pending := rfl
@[simp] theorem State.purgeGap_fuses (s : State) (g : Nat) : (s.purgeGap g).fuses = s.fuses := rfl
@[simp] theorem State.purgeGap_advance (s : State) (g : Nat) :
    (s.purgeGap g).advance = s.advance := rfl
@[simp] theorem State.purgeGap_control (s : State) (g : Nat) :
    (s.purgeGap g).control = s.control := rfl
@[simp] theorem State.purgeGap_classTable (s : State) (g : Nat) :
    (s.purgeGap g).classTable = s.classTable := rfl
@[simp] theorem State.purgeGap_settings (s : State) (g : Nat) :
    (s.purgeGap g).settings = s.settings := rfl
@[simp] theorem State.purgeGap_lock (s : State) (g : Nat) : (s.purgeGap g).lock = s.lock := rfl
@[simp] theorem State.purgeGap_port0 (s : State) (g : Nat) : (s.purgeGap g).port0 = s.port0 := rfl
@[simp] theorem State.purgeGap_port1 (s : State) (g : Nat) : (s.purgeGap g).port1 = s.port1 := rfl
@[simp] theorem State.purgeGap_transaction (s : State) (g : Nat) :
    (s.purgeGap g).transaction = s.transaction := rfl
@[simp] theorem State.purgeGap_delivered (s : State) (g : Nat) :
    (s.purgeGap g).delivered = s.delivered := rfl
@[simp] theorem State.purgeGap_regions (s : State) (g : Nat) :
    (s.purgeGap g).regions = s.regions := rfl
@[simp] theorem State.purgeGap_segments (s : State) (g : Nat) :
    (s.purgeGap g).segments = s.segments := rfl
@[simp] theorem State.purgeGap_pool (s : State) (g : Nat) :
    (s.purgeGap g).pool = { s.pool with gaps := s.pool.gaps.filter (fun x => x != g) } := rfl
@[simp] theorem State.purgeGap_engine (s : State) (g : Nat) :
    (s.purgeGap g).engine = s.engine := rfl
@[simp] theorem State.purgeGap_gates (s : State) (g : Nat) : (s.purgeGap g).gates = s.gates := rfl
@[simp] theorem State.purgeGap_faults (s : State) (g : Nat) :
    (s.purgeGap g).faults = s.faults := rfl
@[simp] theorem State.purgeGap_alert (s : State) (g : Nat) : (s.purgeGap g).alert = s.alert := rfl
@[simp] theorem State.purgeGap_buffer (s : State) (g : Nat) :
    (s.purgeGap g).buffer = s.buffer := rfl
@[simp] theorem State.purgeGap_power (s : State) (g : Nat) : (s.purgeGap g).power = s.power := rfl
@[simp] theorem State.purgeGap_lines (s : State) (g : Nat) : (s.purgeGap g).lines = s.lines := rfl
@[simp] theorem State.purgeGap_time (s : State) (g : Nat) : (s.purgeGap g).time = s.time := rfl
@[simp] theorem State.purgeGap_drawn (s : State) (g : Nat) : (s.purgeGap g).drawn = s.drawn := rfl

/-! ### replacedExpiry -/

@[simp] theorem State.replacedExpiry_pending (s : State) (t : SequenceTimer) :
    (s.replacedExpiry t).pending = s.pending := rfl
@[simp] theorem State.replacedExpiry_fuses (s : State) (t : SequenceTimer) :
    (s.replacedExpiry t).fuses = s.fuses := rfl
@[simp] theorem State.replacedExpiry_advance (s : State) (t : SequenceTimer) :
    (s.replacedExpiry t).advance = s.advance := rfl
@[simp] theorem State.replacedExpiry_control (s : State) (t : SequenceTimer) :
    (s.replacedExpiry t).control = s.control := rfl
@[simp] theorem State.replacedExpiry_classTable (s : State) (t : SequenceTimer) :
    (s.replacedExpiry t).classTable = s.classTable := rfl
@[simp] theorem State.replacedExpiry_settings (s : State) (t : SequenceTimer) :
    (s.replacedExpiry t).settings = s.settings := rfl
@[simp] theorem State.replacedExpiry_lock (s : State) (t : SequenceTimer) :
    (s.replacedExpiry t).lock = s.lock := rfl
@[simp] theorem State.replacedExpiry_port0 (s : State) (t : SequenceTimer) :
    (s.replacedExpiry t).port0 = s.port0 := rfl
@[simp] theorem State.replacedExpiry_port1 (s : State) (t : SequenceTimer) :
    (s.replacedExpiry t).port1 = s.port1 := rfl
@[simp] theorem State.replacedExpiry_transaction (s : State) (t : SequenceTimer) :
    (s.replacedExpiry t).transaction = s.transaction := rfl
@[simp] theorem State.replacedExpiry_delivered (s : State) (t : SequenceTimer) :
    (s.replacedExpiry t).delivered = s.delivered := rfl
@[simp] theorem State.replacedExpiry_regions (s : State) (t : SequenceTimer) :
    (s.replacedExpiry t).regions = s.regions := rfl
@[simp] theorem State.replacedExpiry_segments (s : State) (t : SequenceTimer) :
    (s.replacedExpiry t).segments = s.segments := rfl
@[simp] theorem State.replacedExpiry_pool (s : State) (t : SequenceTimer) :
    (s.replacedExpiry t).pool = s.pool := rfl
@[simp] theorem State.replacedExpiry_engine (s : State) (t : SequenceTimer) :
    (s.replacedExpiry t).engine = s.engine := rfl
@[simp] theorem State.replacedExpiry_gates (s : State) (t : SequenceTimer) :
    (s.replacedExpiry t).gates = { s.gates with timer := some { t with superseded := false } } := rfl
@[simp] theorem State.replacedExpiry_faults (s : State) (t : SequenceTimer) :
    (s.replacedExpiry t).faults = s.faults := rfl
@[simp] theorem State.replacedExpiry_alert (s : State) (t : SequenceTimer) :
    (s.replacedExpiry t).alert = s.alert := rfl
@[simp] theorem State.replacedExpiry_buffer (s : State) (t : SequenceTimer) :
    (s.replacedExpiry t).buffer = s.buffer := rfl
@[simp] theorem State.replacedExpiry_power (s : State) (t : SequenceTimer) :
    (s.replacedExpiry t).power = s.power := rfl
@[simp] theorem State.replacedExpiry_lines (s : State) (t : SequenceTimer) :
    (s.replacedExpiry t).lines = s.lines := rfl
@[simp] theorem State.replacedExpiry_time (s : State) (t : SequenceTimer) :
    (s.replacedExpiry t).time = s.time := rfl
@[simp] theorem State.replacedExpiry_drawn (s : State) (t : SequenceTimer) :
    (s.replacedExpiry t).drawn = s.drawn := rfl

/-! ### startWaking -/

@[simp] theorem State.startWaking_pending (s : State) : (s.startWaking).pending = s.pending := rfl
@[simp] theorem State.startWaking_fuses (s : State) : (s.startWaking).fuses = s.fuses := rfl
@[simp] theorem State.startWaking_advance (s : State) : (s.startWaking).advance = s.advance := rfl
@[simp] theorem State.startWaking_control (s : State) : (s.startWaking).control = s.control := rfl
@[simp] theorem State.startWaking_classTable (s : State) :
    (s.startWaking).classTable = s.classTable := rfl
@[simp] theorem State.startWaking_settings (s : State) :
    (s.startWaking).settings = s.settings := rfl
@[simp] theorem State.startWaking_lock (s : State) : (s.startWaking).lock = s.lock := rfl
@[simp] theorem State.startWaking_port0 (s : State) : (s.startWaking).port0 = s.port0 := rfl
@[simp] theorem State.startWaking_port1 (s : State) : (s.startWaking).port1 = s.port1 := rfl
@[simp] theorem State.startWaking_transaction (s : State) :
    (s.startWaking).transaction = s.transaction := rfl
@[simp] theorem State.startWaking_delivered (s : State) :
    (s.startWaking).delivered = s.delivered := rfl
@[simp] theorem State.startWaking_regions (s : State) : (s.startWaking).regions = s.regions := rfl
@[simp] theorem State.startWaking_segments (s : State) :
    (s.startWaking).segments = s.segments := rfl
@[simp] theorem State.startWaking_pool (s : State) : (s.startWaking).pool = s.pool := rfl
@[simp] theorem State.startWaking_engine (s : State) : (s.startWaking).engine = s.engine := rfl
@[simp] theorem State.startWaking_gates (s : State) : (s.startWaking).gates = s.gates := rfl
@[simp] theorem State.startWaking_faults (s : State) : (s.startWaking).faults = s.faults := rfl
@[simp] theorem State.startWaking_alert (s : State) : (s.startWaking).alert = s.alert := rfl
@[simp] theorem State.startWaking_buffer (s : State) : (s.startWaking).buffer = s.buffer := rfl
@[simp] theorem State.startWaking_power (s : State) :
    (s.startWaking).power = { state := .waking, fpwr := true, settle := some s.time } := rfl
@[simp] theorem State.startWaking_lines (s : State) : (s.startWaking).lines = s.lines := rfl
@[simp] theorem State.startWaking_time (s : State) : (s.startWaking).time = s.time := rfl
@[simp] theorem State.startWaking_drawn (s : State) : (s.startWaking).drawn = s.drawn := rfl

/-! ### becomeActive -/

@[simp] theorem State.becomeActive_pending (s : State) : (s.becomeActive).pending = s.pending := rfl
@[simp] theorem State.becomeActive_fuses (s : State) : (s.becomeActive).fuses = s.fuses := rfl
@[simp] theorem State.becomeActive_advance (s : State) : (s.becomeActive).advance = s.advance := rfl
@[simp] theorem State.becomeActive_control (s : State) : (s.becomeActive).control = s.control := rfl
@[simp] theorem State.becomeActive_classTable (s : State) :
    (s.becomeActive).classTable = s.classTable := rfl
@[simp] theorem State.becomeActive_settings (s : State) :
    (s.becomeActive).settings = s.settings := rfl
@[simp] theorem State.becomeActive_lock (s : State) : (s.becomeActive).lock = s.lock := rfl
@[simp] theorem State.becomeActive_port0 (s : State) :
    (s.becomeActive).port0 = s.port0.resumed := rfl
@[simp] theorem State.becomeActive_port1 (s : State) :
    (s.becomeActive).port1 = s.port1.resumed := rfl
@[simp] theorem State.becomeActive_transaction (s : State) :
    (s.becomeActive).transaction = s.transaction := rfl
@[simp] theorem State.becomeActive_delivered (s : State) :
    (s.becomeActive).delivered = s.delivered := rfl
@[simp] theorem State.becomeActive_regions (s : State) : (s.becomeActive).regions = s.regions := rfl
@[simp] theorem State.becomeActive_segments (s : State) :
    (s.becomeActive).segments = s.segments := rfl
@[simp] theorem State.becomeActive_pool (s : State) : (s.becomeActive).pool = s.pool := rfl
@[simp] theorem State.becomeActive_engine (s : State) : (s.becomeActive).engine = s.engine := rfl
@[simp] theorem State.becomeActive_gates (s : State) : (s.becomeActive).gates = s.gates := rfl
@[simp] theorem State.becomeActive_faults (s : State) : (s.becomeActive).faults = s.faults := rfl
@[simp] theorem State.becomeActive_alert (s : State) : (s.becomeActive).alert = s.alert := rfl
@[simp] theorem State.becomeActive_buffer (s : State) : (s.becomeActive).buffer = s.buffer := rfl
@[simp] theorem State.becomeActive_power (s : State) :
    (s.becomeActive).power = { s.power with state := .active, settle := none } := rfl
@[simp] theorem State.becomeActive_lines (s : State) : (s.becomeActive).lines = s.lines := rfl
@[simp] theorem State.becomeActive_time (s : State) : (s.becomeActive).time = s.time := rfl
@[simp] theorem State.becomeActive_drawn (s : State) : (s.becomeActive).drawn = s.drawn := rfl

/-! ### setCandidates -/

@[simp] theorem State.setCandidates_pending (s : State) (l : List Candidate) :
    (s.setCandidates l).pending = s.pending := rfl
@[simp] theorem State.setCandidates_fuses (s : State) (l : List Candidate) :
    (s.setCandidates l).fuses = s.fuses := rfl
@[simp] theorem State.setCandidates_advance (s : State) (l : List Candidate) :
    (s.setCandidates l).advance = s.advance := rfl
@[simp] theorem State.setCandidates_control (s : State) (l : List Candidate) :
    (s.setCandidates l).control = { s.control with candidates := l } := rfl
@[simp] theorem State.setCandidates_classTable (s : State) (l : List Candidate) :
    (s.setCandidates l).classTable = s.classTable := rfl
@[simp] theorem State.setCandidates_settings (s : State) (l : List Candidate) :
    (s.setCandidates l).settings = s.settings := rfl
@[simp] theorem State.setCandidates_lock (s : State) (l : List Candidate) :
    (s.setCandidates l).lock = s.lock := rfl
@[simp] theorem State.setCandidates_port0 (s : State) (l : List Candidate) :
    (s.setCandidates l).port0 = s.port0 := rfl
@[simp] theorem State.setCandidates_port1 (s : State) (l : List Candidate) :
    (s.setCandidates l).port1 = s.port1 := rfl
@[simp] theorem State.setCandidates_transaction (s : State) (l : List Candidate) :
    (s.setCandidates l).transaction = s.transaction := rfl
@[simp] theorem State.setCandidates_delivered (s : State) (l : List Candidate) :
    (s.setCandidates l).delivered = s.delivered := rfl
@[simp] theorem State.setCandidates_regions (s : State) (l : List Candidate) :
    (s.setCandidates l).regions = s.regions := rfl
@[simp] theorem State.setCandidates_segments (s : State) (l : List Candidate) :
    (s.setCandidates l).segments = s.segments := rfl
@[simp] theorem State.setCandidates_pool (s : State) (l : List Candidate) :
    (s.setCandidates l).pool = s.pool := rfl
@[simp] theorem State.setCandidates_engine (s : State) (l : List Candidate) :
    (s.setCandidates l).engine = s.engine := rfl
@[simp] theorem State.setCandidates_gates (s : State) (l : List Candidate) :
    (s.setCandidates l).gates = s.gates := rfl
@[simp] theorem State.setCandidates_faults (s : State) (l : List Candidate) :
    (s.setCandidates l).faults = s.faults := rfl
@[simp] theorem State.setCandidates_alert (s : State) (l : List Candidate) :
    (s.setCandidates l).alert = s.alert := rfl
@[simp] theorem State.setCandidates_buffer (s : State) (l : List Candidate) :
    (s.setCandidates l).buffer = s.buffer := rfl
@[simp] theorem State.setCandidates_power (s : State) (l : List Candidate) :
    (s.setCandidates l).power = s.power := rfl
@[simp] theorem State.setCandidates_lines (s : State) (l : List Candidate) :
    (s.setCandidates l).lines = s.lines := rfl
@[simp] theorem State.setCandidates_time (s : State) (l : List Candidate) :
    (s.setCandidates l).time = s.time := rfl
@[simp] theorem State.setCandidates_drawn (s : State) (l : List Candidate) :
    (s.setCandidates l).drawn = s.drawn := rfl

/-! ### reply -/

@[simp] theorem State.reply_pending (s : State) (tag code : Byte) (st : Status) (data : List Byte) :
    (s.reply tag code st data).pending = s.pending := rfl
@[simp] theorem State.reply_fuses (s : State) (tag code : Byte) (st : Status) (data : List Byte) :
    (s.reply tag code st data).fuses = s.fuses := rfl
@[simp] theorem State.reply_advance (s : State) (tag code : Byte) (st : Status) (data : List Byte) :
    (s.reply tag code st data).advance = s.advance := rfl
@[simp] theorem State.reply_control (s : State) (tag code : Byte) (st : Status) (data : List Byte) :
    (s.reply tag code st data).control = s.control := rfl
@[simp] theorem State.reply_classTable (s : State) (tag code : Byte) (st : Status) (data : List Byte) :
    (s.reply tag code st data).classTable = s.classTable := rfl
@[simp] theorem State.reply_settings (s : State) (tag code : Byte) (st : Status) (data : List Byte) :
    (s.reply tag code st data).settings = s.settings := rfl
@[simp] theorem State.reply_lock (s : State) (tag code : Byte) (st : Status) (data : List Byte) :
    (s.reply tag code st data).lock = s.lock := rfl
@[simp] theorem State.reply_port0 (s : State) (tag code : Byte) (st : Status) (data : List Byte) :
    (s.reply tag code st data).port0 = s.port0 := rfl
@[simp] theorem State.reply_port1 (s : State) (tag code : Byte) (st : Status) (data : List Byte) :
    (s.reply tag code st data).port1 = s.port1 := rfl
@[simp] theorem State.reply_transaction (s : State) (tag code : Byte) (st : Status) (data : List Byte) :
    (s.reply tag code st data).transaction = s.transaction := rfl
@[simp] theorem State.reply_delivered (s : State) (tag code : Byte) (st : Status) (data : List Byte) :
    (s.reply tag code st data).delivered = s.delivered := rfl
@[simp] theorem State.reply_regions (s : State) (tag code : Byte) (st : Status) (data : List Byte) :
    (s.reply tag code st data).regions = s.regions := rfl
@[simp] theorem State.reply_segments (s : State) (tag code : Byte) (st : Status) (data : List Byte) :
    (s.reply tag code st data).segments = s.segments := rfl
@[simp] theorem State.reply_pool (s : State) (tag code : Byte) (st : Status) (data : List Byte) :
    (s.reply tag code st data).pool = s.pool := rfl
@[simp] theorem State.reply_engine (s : State) (tag code : Byte) (st : Status) (data : List Byte) :
    (s.reply tag code st data).engine = s.engine := rfl
@[simp] theorem State.reply_gates (s : State) (tag code : Byte) (st : Status) (data : List Byte) :
    (s.reply tag code st data).gates = s.gates := rfl
@[simp] theorem State.reply_faults (s : State) (tag code : Byte) (st : Status) (data : List Byte) :
    (s.reply tag code st data).faults = s.faults := rfl
@[simp] theorem State.reply_alert (s : State) (tag code : Byte) (st : Status) (data : List Byte) :
    (s.reply tag code st data).alert = s.alert := rfl
@[simp] theorem State.reply_buffer (s : State) (tag code : Byte) (st : Status) (data : List Byte) :
    (s.reply tag code st data).buffer = { state := .ready, tag := tag, code := code, status := some st, data := data } := rfl
@[simp] theorem State.reply_power (s : State) (tag code : Byte) (st : Status) (data : List Byte) :
    (s.reply tag code st data).power = s.power := rfl
@[simp] theorem State.reply_lines (s : State) (tag code : Byte) (st : Status) (data : List Byte) :
    (s.reply tag code st data).lines = s.lines := rfl
@[simp] theorem State.reply_time (s : State) (tag code : Byte) (st : Status) (data : List Byte) :
    (s.reply tag code st data).time = s.time := rfl
@[simp] theorem State.reply_drawn (s : State) (tag code : Byte) (st : Status) (data : List Byte) :
    (s.reply tag code st data).drawn = s.drawn := rfl

/-! ### setTransaction -/

@[simp] theorem State.setTransaction_pending (s : State) (t : Transaction) :
    (s.setTransaction t).pending = s.pending := rfl
@[simp] theorem State.setTransaction_fuses (s : State) (t : Transaction) :
    (s.setTransaction t).fuses = s.fuses := rfl
@[simp] theorem State.setTransaction_advance (s : State) (t : Transaction) :
    (s.setTransaction t).advance = s.advance := rfl
@[simp] theorem State.setTransaction_control (s : State) (t : Transaction) :
    (s.setTransaction t).control = s.control := rfl
@[simp] theorem State.setTransaction_classTable (s : State) (t : Transaction) :
    (s.setTransaction t).classTable = s.classTable := rfl
@[simp] theorem State.setTransaction_settings (s : State) (t : Transaction) :
    (s.setTransaction t).settings = s.settings := rfl
@[simp] theorem State.setTransaction_lock (s : State) (t : Transaction) :
    (s.setTransaction t).lock = s.lock := rfl
@[simp] theorem State.setTransaction_port0 (s : State) (t : Transaction) :
    (s.setTransaction t).port0 = s.port0 := rfl
@[simp] theorem State.setTransaction_port1 (s : State) (t : Transaction) :
    (s.setTransaction t).port1 = s.port1 := rfl
@[simp] theorem State.setTransaction_transaction (s : State) (t : Transaction) :
    (s.setTransaction t).transaction = some t := rfl
@[simp] theorem State.setTransaction_delivered (s : State) (t : Transaction) :
    (s.setTransaction t).delivered = s.delivered := rfl
@[simp] theorem State.setTransaction_regions (s : State) (t : Transaction) :
    (s.setTransaction t).regions = s.regions := rfl
@[simp] theorem State.setTransaction_segments (s : State) (t : Transaction) :
    (s.setTransaction t).segments = s.segments := rfl
@[simp] theorem State.setTransaction_pool (s : State) (t : Transaction) :
    (s.setTransaction t).pool = s.pool := rfl
@[simp] theorem State.setTransaction_engine (s : State) (t : Transaction) :
    (s.setTransaction t).engine = s.engine := rfl
@[simp] theorem State.setTransaction_gates (s : State) (t : Transaction) :
    (s.setTransaction t).gates = s.gates := rfl
@[simp] theorem State.setTransaction_faults (s : State) (t : Transaction) :
    (s.setTransaction t).faults = s.faults := rfl
@[simp] theorem State.setTransaction_alert (s : State) (t : Transaction) :
    (s.setTransaction t).alert = s.alert := rfl
@[simp] theorem State.setTransaction_buffer (s : State) (t : Transaction) :
    (s.setTransaction t).buffer = s.buffer := rfl
@[simp] theorem State.setTransaction_power (s : State) (t : Transaction) :
    (s.setTransaction t).power = s.power := rfl
@[simp] theorem State.setTransaction_lines (s : State) (t : Transaction) :
    (s.setTransaction t).lines = s.lines := rfl
@[simp] theorem State.setTransaction_time (s : State) (t : Transaction) :
    (s.setTransaction t).time = s.time := rfl
@[simp] theorem State.setTransaction_drawn (s : State) (t : Transaction) :
    (s.setTransaction t).drawn = s.drawn := rfl

/-! ### setChannel -/

@[simp] theorem State.setChannel_pending (s : State) (c : Channel) :
    (s.setChannel c).pending = s.pending := rfl
@[simp] theorem State.setChannel_fuses (s : State) (c : Channel) :
    (s.setChannel c).fuses = s.fuses := rfl
@[simp] theorem State.setChannel_advance (s : State) (c : Channel) :
    (s.setChannel c).advance = s.advance := rfl
@[simp] theorem State.setChannel_control (s : State) (c : Channel) :
    (s.setChannel c).control = s.control := rfl
@[simp] theorem State.setChannel_classTable (s : State) (c : Channel) :
    (s.setChannel c).classTable = s.classTable := rfl
@[simp] theorem State.setChannel_settings (s : State) (c : Channel) :
    (s.setChannel c).settings = s.settings := rfl
@[simp] theorem State.setChannel_lock (s : State) (c : Channel) :
    (s.setChannel c).lock = s.lock := rfl
@[simp] theorem State.setChannel_port0 (s : State) (c : Channel) :
    (s.setChannel c).port0 = s.port0 := rfl
@[simp] theorem State.setChannel_port1 (s : State) (c : Channel) :
    (s.setChannel c).port1 = s.port1 := rfl
@[simp] theorem State.setChannel_transaction (s : State) (c : Channel) :
    (s.setChannel c).transaction = s.transaction.map (fun t => { t with channel := c }) := rfl
@[simp] theorem State.setChannel_delivered (s : State) (c : Channel) :
    (s.setChannel c).delivered = s.delivered := rfl
@[simp] theorem State.setChannel_regions (s : State) (c : Channel) :
    (s.setChannel c).regions = s.regions := rfl
@[simp] theorem State.setChannel_segments (s : State) (c : Channel) :
    (s.setChannel c).segments = s.segments := rfl
@[simp] theorem State.setChannel_pool (s : State) (c : Channel) :
    (s.setChannel c).pool = s.pool := rfl
@[simp] theorem State.setChannel_engine (s : State) (c : Channel) :
    (s.setChannel c).engine = s.engine := rfl
@[simp] theorem State.setChannel_gates (s : State) (c : Channel) :
    (s.setChannel c).gates = s.gates := rfl
@[simp] theorem State.setChannel_faults (s : State) (c : Channel) :
    (s.setChannel c).faults = s.faults := rfl
@[simp] theorem State.setChannel_alert (s : State) (c : Channel) :
    (s.setChannel c).alert = s.alert := rfl
@[simp] theorem State.setChannel_buffer (s : State) (c : Channel) :
    (s.setChannel c).buffer = s.buffer := rfl
@[simp] theorem State.setChannel_power (s : State) (c : Channel) :
    (s.setChannel c).power = s.power := rfl
@[simp] theorem State.setChannel_lines (s : State) (c : Channel) :
    (s.setChannel c).lines = s.lines := rfl
@[simp] theorem State.setChannel_time (s : State) (c : Channel) :
    (s.setChannel c).time = s.time := rfl
@[simp] theorem State.setChannel_drawn (s : State) (c : Channel) :
    (s.setChannel c).drawn = s.drawn := rfl

/-! ### deliver -/

@[simp] theorem State.deliver_pending (s : State) (b : Byte) :
    (s.deliver b).pending = s.pending := rfl
@[simp] theorem State.deliver_fuses (s : State) (b : Byte) : (s.deliver b).fuses = s.fuses := rfl
@[simp] theorem State.deliver_advance (s : State) (b : Byte) :
    (s.deliver b).advance = s.advance := rfl
@[simp] theorem State.deliver_control (s : State) (b : Byte) :
    (s.deliver b).control = s.control := rfl
@[simp] theorem State.deliver_classTable (s : State) (b : Byte) :
    (s.deliver b).classTable = s.classTable := rfl
@[simp] theorem State.deliver_settings (s : State) (b : Byte) :
    (s.deliver b).settings = s.settings := rfl
@[simp] theorem State.deliver_lock (s : State) (b : Byte) : (s.deliver b).lock = s.lock := rfl
@[simp] theorem State.deliver_port0 (s : State) (b : Byte) : (s.deliver b).port0 = s.port0 := rfl
@[simp] theorem State.deliver_port1 (s : State) (b : Byte) : (s.deliver b).port1 = s.port1 := rfl
@[simp] theorem State.deliver_transaction (s : State) (b : Byte) :
    (s.deliver b).transaction = s.transaction := rfl
@[simp] theorem State.deliver_delivered (s : State) (b : Byte) :
    (s.deliver b).delivered = some b := rfl
@[simp] theorem State.deliver_regions (s : State) (b : Byte) :
    (s.deliver b).regions = s.regions := rfl
@[simp] theorem State.deliver_segments (s : State) (b : Byte) :
    (s.deliver b).segments = s.segments := rfl
@[simp] theorem State.deliver_pool (s : State) (b : Byte) : (s.deliver b).pool = s.pool := rfl
@[simp] theorem State.deliver_engine (s : State) (b : Byte) : (s.deliver b).engine = s.engine := rfl
@[simp] theorem State.deliver_gates (s : State) (b : Byte) : (s.deliver b).gates = s.gates := rfl
@[simp] theorem State.deliver_faults (s : State) (b : Byte) : (s.deliver b).faults = s.faults := rfl
@[simp] theorem State.deliver_alert (s : State) (b : Byte) : (s.deliver b).alert = s.alert := rfl
@[simp] theorem State.deliver_buffer (s : State) (b : Byte) : (s.deliver b).buffer = s.buffer := rfl
@[simp] theorem State.deliver_power (s : State) (b : Byte) : (s.deliver b).power = s.power := rfl
@[simp] theorem State.deliver_lines (s : State) (b : Byte) : (s.deliver b).lines = s.lines := rfl
@[simp] theorem State.deliver_time (s : State) (b : Byte) : (s.deliver b).time = s.time := rfl
@[simp] theorem State.deliver_drawn (s : State) (b : Byte) : (s.deliver b).drawn = s.drawn := rfl

/-! ### endAdvance -/

@[simp] theorem State.endAdvance_pending (s : State) (st : Status) :
    (s.endAdvance st).pending = s.pending := rfl
@[simp] theorem State.endAdvance_fuses (s : State) (st : Status) :
    (s.endAdvance st).fuses = s.fuses := rfl
@[simp] theorem State.endAdvance_advance (s : State) (st : Status) :
    (s.endAdvance st).advance = [] := rfl
@[simp] theorem State.endAdvance_classTable (s : State) (st : Status) :
    (s.endAdvance st).classTable = s.classTable := rfl
@[simp] theorem State.endAdvance_settings (s : State) (st : Status) :
    (s.endAdvance st).settings = s.settings := rfl
@[simp] theorem State.endAdvance_lock (s : State) (st : Status) :
    (s.endAdvance st).lock = s.lock := rfl
@[simp] theorem State.endAdvance_port0 (s : State) (st : Status) :
    (s.endAdvance st).port0 = s.port0 := rfl
@[simp] theorem State.endAdvance_port1 (s : State) (st : Status) :
    (s.endAdvance st).port1 = s.port1 := rfl
@[simp] theorem State.endAdvance_transaction (s : State) (st : Status) :
    (s.endAdvance st).transaction = s.transaction := rfl
@[simp] theorem State.endAdvance_delivered (s : State) (st : Status) :
    (s.endAdvance st).delivered = s.delivered := rfl
@[simp] theorem State.endAdvance_regions (s : State) (st : Status) :
    (s.endAdvance st).regions = s.regions := rfl
@[simp] theorem State.endAdvance_segments (s : State) (st : Status) :
    (s.endAdvance st).segments = s.segments := rfl
@[simp] theorem State.endAdvance_pool (s : State) (st : Status) :
    (s.endAdvance st).pool = s.pool := rfl
@[simp] theorem State.endAdvance_engine (s : State) (st : Status) :
    (s.endAdvance st).engine = s.engine := rfl
@[simp] theorem State.endAdvance_gates (s : State) (st : Status) :
    (s.endAdvance st).gates = s.gates := rfl
@[simp] theorem State.endAdvance_faults (s : State) (st : Status) :
    (s.endAdvance st).faults = s.faults := rfl
@[simp] theorem State.endAdvance_alert (s : State) (st : Status) :
    (s.endAdvance st).alert = s.alert := rfl
@[simp] theorem State.endAdvance_buffer (s : State) (st : Status) :
    (s.endAdvance st).buffer = { s.buffer with state := .ready, status := some st, data := [] } := rfl
@[simp] theorem State.endAdvance_power (s : State) (st : Status) :
    (s.endAdvance st).power = s.power := rfl
@[simp] theorem State.endAdvance_lines (s : State) (st : Status) :
    (s.endAdvance st).lines = s.lines := rfl
@[simp] theorem State.endAdvance_time (s : State) (st : Status) :
    (s.endAdvance st).time = s.time := rfl
@[simp] theorem State.endAdvance_drawn (s : State) (st : Status) :
    (s.endAdvance st).drawn = s.drawn := rfl

/-! ### setPort -/

@[simp] theorem State.setPort_pending (s : State) (p : Port) (q : PortState) :
    (s.setPort p q).pending = s.pending := by cases p <;> rfl
@[simp] theorem State.setPort_fuses (s : State) (p : Port) (q : PortState) :
    (s.setPort p q).fuses = s.fuses := by cases p <;> rfl
@[simp] theorem State.setPort_advance (s : State) (p : Port) (q : PortState) :
    (s.setPort p q).advance = s.advance := by cases p <;> rfl
@[simp] theorem State.setPort_control (s : State) (p : Port) (q : PortState) :
    (s.setPort p q).control = s.control := by cases p <;> rfl
@[simp] theorem State.setPort_classTable (s : State) (p : Port) (q : PortState) :
    (s.setPort p q).classTable = s.classTable := by cases p <;> rfl
@[simp] theorem State.setPort_settings (s : State) (p : Port) (q : PortState) :
    (s.setPort p q).settings = s.settings := by cases p <;> rfl
@[simp] theorem State.setPort_lock (s : State) (p : Port) (q : PortState) :
    (s.setPort p q).lock = s.lock := by cases p <;> rfl
@[simp] theorem State.setPort_transaction (s : State) (p : Port) (q : PortState) :
    (s.setPort p q).transaction = s.transaction := by cases p <;> rfl
@[simp] theorem State.setPort_delivered (s : State) (p : Port) (q : PortState) :
    (s.setPort p q).delivered = s.delivered := by cases p <;> rfl
@[simp] theorem State.setPort_regions (s : State) (p : Port) (q : PortState) :
    (s.setPort p q).regions = s.regions := by cases p <;> rfl
@[simp] theorem State.setPort_segments (s : State) (p : Port) (q : PortState) :
    (s.setPort p q).segments = s.segments := by cases p <;> rfl
@[simp] theorem State.setPort_pool (s : State) (p : Port) (q : PortState) :
    (s.setPort p q).pool = s.pool := by cases p <;> rfl
@[simp] theorem State.setPort_engine (s : State) (p : Port) (q : PortState) :
    (s.setPort p q).engine = s.engine := by cases p <;> rfl
@[simp] theorem State.setPort_gates (s : State) (p : Port) (q : PortState) :
    (s.setPort p q).gates = s.gates := by cases p <;> rfl
@[simp] theorem State.setPort_faults (s : State) (p : Port) (q : PortState) :
    (s.setPort p q).faults = s.faults := by cases p <;> rfl
@[simp] theorem State.setPort_alert (s : State) (p : Port) (q : PortState) :
    (s.setPort p q).alert = s.alert := by cases p <;> rfl
@[simp] theorem State.setPort_buffer (s : State) (p : Port) (q : PortState) :
    (s.setPort p q).buffer = s.buffer := by cases p <;> rfl
@[simp] theorem State.setPort_power (s : State) (p : Port) (q : PortState) :
    (s.setPort p q).power = s.power := by cases p <;> rfl
@[simp] theorem State.setPort_lines (s : State) (p : Port) (q : PortState) :
    (s.setPort p q).lines = s.lines := by cases p <;> rfl
@[simp] theorem State.setPort_time (s : State) (p : Port) (q : PortState) :
    (s.setPort p q).time = s.time := by cases p <;> rfl
@[simp] theorem State.setPort_drawn (s : State) (p : Port) (q : PortState) :
    (s.setPort p q).drawn = s.drawn := by cases p <;> rfl

/-! ### pushFault -/

@[simp] theorem State.pushFault_pending (s : State) (k : FaultKind) (r g a : Option Nat) (d : Byte) :
    (s.pushFault k r g a d).pending = s.pending := by
  unfold State.pushFault; split <;> rfl
@[simp] theorem State.pushFault_fuses (s : State) (k : FaultKind) (r g a : Option Nat) (d : Byte) :
    (s.pushFault k r g a d).fuses = s.fuses := by
  unfold State.pushFault; split <;> rfl
@[simp] theorem State.pushFault_advance (s : State) (k : FaultKind) (r g a : Option Nat) (d : Byte) :
    (s.pushFault k r g a d).advance = s.advance := by
  unfold State.pushFault; split <;> rfl
@[simp] theorem State.pushFault_control (s : State) (k : FaultKind) (r g a : Option Nat) (d : Byte) :
    (s.pushFault k r g a d).control = s.control := by
  unfold State.pushFault; split <;> rfl
@[simp] theorem State.pushFault_classTable (s : State) (k : FaultKind) (r g a : Option Nat) (d : Byte) :
    (s.pushFault k r g a d).classTable = s.classTable := by
  unfold State.pushFault; split <;> rfl
@[simp] theorem State.pushFault_settings (s : State) (k : FaultKind) (r g a : Option Nat) (d : Byte) :
    (s.pushFault k r g a d).settings = s.settings := by
  unfold State.pushFault; split <;> rfl
@[simp] theorem State.pushFault_lock (s : State) (k : FaultKind) (r g a : Option Nat) (d : Byte) :
    (s.pushFault k r g a d).lock = s.lock := by
  unfold State.pushFault; split <;> rfl
@[simp] theorem State.pushFault_port0 (s : State) (k : FaultKind) (r g a : Option Nat) (d : Byte) :
    (s.pushFault k r g a d).port0 = s.port0 := by
  unfold State.pushFault; split <;> rfl
@[simp] theorem State.pushFault_port1 (s : State) (k : FaultKind) (r g a : Option Nat) (d : Byte) :
    (s.pushFault k r g a d).port1 = s.port1 := by
  unfold State.pushFault; split <;> rfl
@[simp] theorem State.pushFault_transaction (s : State) (k : FaultKind) (r g a : Option Nat) (d : Byte) :
    (s.pushFault k r g a d).transaction = s.transaction := by
  unfold State.pushFault; split <;> rfl
@[simp] theorem State.pushFault_delivered (s : State) (k : FaultKind) (r g a : Option Nat) (d : Byte) :
    (s.pushFault k r g a d).delivered = s.delivered := by
  unfold State.pushFault; split <;> rfl
@[simp] theorem State.pushFault_regions (s : State) (k : FaultKind) (r g a : Option Nat) (d : Byte) :
    (s.pushFault k r g a d).regions = s.regions := by
  unfold State.pushFault; split <;> rfl
@[simp] theorem State.pushFault_segments (s : State) (k : FaultKind) (r g a : Option Nat) (d : Byte) :
    (s.pushFault k r g a d).segments = s.segments := by
  unfold State.pushFault; split <;> rfl
@[simp] theorem State.pushFault_pool (s : State) (k : FaultKind) (r g a : Option Nat) (d : Byte) :
    (s.pushFault k r g a d).pool = s.pool := by
  unfold State.pushFault; split <;> rfl
@[simp] theorem State.pushFault_engine (s : State) (k : FaultKind) (r g a : Option Nat) (d : Byte) :
    (s.pushFault k r g a d).engine = s.engine := by
  unfold State.pushFault; split <;> rfl
@[simp] theorem State.pushFault_gates (s : State) (k : FaultKind) (r g a : Option Nat) (d : Byte) :
    (s.pushFault k r g a d).gates = s.gates := by
  unfold State.pushFault; split <;> rfl
@[simp] theorem State.pushFault_buffer (s : State) (k : FaultKind) (r g a : Option Nat) (d : Byte) :
    (s.pushFault k r g a d).buffer = s.buffer := by
  unfold State.pushFault; split <;> rfl
@[simp] theorem State.pushFault_power (s : State) (k : FaultKind) (r g a : Option Nat) (d : Byte) :
    (s.pushFault k r g a d).power = s.power := by
  unfold State.pushFault; split <;> rfl
@[simp] theorem State.pushFault_lines (s : State) (k : FaultKind) (r g a : Option Nat) (d : Byte) :
    (s.pushFault k r g a d).lines = s.lines := by
  unfold State.pushFault; split <;> rfl
@[simp] theorem State.pushFault_time (s : State) (k : FaultKind) (r g a : Option Nat) (d : Byte) :
    (s.pushFault k r g a d).time = s.time := by
  unfold State.pushFault; split <;> rfl
@[simp] theorem State.pushFault_drawn (s : State) (k : FaultKind) (r g a : Option Nat) (d : Byte) :
    (s.pushFault k r g a d).drawn = s.drawn := by
  unfold State.pushFault; split <;> rfl

/-! ### appendGap -/

@[simp] theorem State.appendGap_pending (s : State) (g : Nat) :
    (s.appendGap g).pending = s.pending := by
  unfold State.appendGap; split <;> rfl
@[simp] theorem State.appendGap_fuses (s : State) (g : Nat) :
    (s.appendGap g).fuses = s.fuses := by
  unfold State.appendGap; split <;> rfl
@[simp] theorem State.appendGap_advance (s : State) (g : Nat) :
    (s.appendGap g).advance = s.advance := by
  unfold State.appendGap; split <;> rfl
@[simp] theorem State.appendGap_control (s : State) (g : Nat) :
    (s.appendGap g).control = s.control := by
  unfold State.appendGap; split <;> rfl
@[simp] theorem State.appendGap_classTable (s : State) (g : Nat) :
    (s.appendGap g).classTable = s.classTable := by
  unfold State.appendGap; split <;> rfl
@[simp] theorem State.appendGap_settings (s : State) (g : Nat) :
    (s.appendGap g).settings = s.settings := by
  unfold State.appendGap; split <;> rfl
@[simp] theorem State.appendGap_lock (s : State) (g : Nat) :
    (s.appendGap g).lock = s.lock := by
  unfold State.appendGap; split <;> rfl
@[simp] theorem State.appendGap_port0 (s : State) (g : Nat) :
    (s.appendGap g).port0 = s.port0 := by
  unfold State.appendGap; split <;> rfl
@[simp] theorem State.appendGap_port1 (s : State) (g : Nat) :
    (s.appendGap g).port1 = s.port1 := by
  unfold State.appendGap; split <;> rfl
@[simp] theorem State.appendGap_transaction (s : State) (g : Nat) :
    (s.appendGap g).transaction = s.transaction := by
  unfold State.appendGap; split <;> rfl
@[simp] theorem State.appendGap_delivered (s : State) (g : Nat) :
    (s.appendGap g).delivered = s.delivered := by
  unfold State.appendGap; split <;> rfl
@[simp] theorem State.appendGap_regions (s : State) (g : Nat) :
    (s.appendGap g).regions = s.regions := by
  unfold State.appendGap; split <;> rfl
@[simp] theorem State.appendGap_segments (s : State) (g : Nat) :
    (s.appendGap g).segments = s.segments := by
  unfold State.appendGap; split <;> rfl
@[simp] theorem State.appendGap_engine (s : State) (g : Nat) :
    (s.appendGap g).engine = s.engine := by
  unfold State.appendGap; split <;> rfl
@[simp] theorem State.appendGap_gates (s : State) (g : Nat) :
    (s.appendGap g).gates = s.gates := by
  unfold State.appendGap; split <;> rfl
@[simp] theorem State.appendGap_faults (s : State) (g : Nat) :
    (s.appendGap g).faults = s.faults := by
  unfold State.appendGap; split <;> rfl
@[simp] theorem State.appendGap_alert (s : State) (g : Nat) :
    (s.appendGap g).alert = s.alert := by
  unfold State.appendGap; split <;> rfl
@[simp] theorem State.appendGap_buffer (s : State) (g : Nat) :
    (s.appendGap g).buffer = s.buffer := by
  unfold State.appendGap; split <;> rfl
@[simp] theorem State.appendGap_power (s : State) (g : Nat) :
    (s.appendGap g).power = s.power := by
  unfold State.appendGap; split <;> rfl
@[simp] theorem State.appendGap_lines (s : State) (g : Nat) :
    (s.appendGap g).lines = s.lines := by
  unfold State.appendGap; split <;> rfl
@[simp] theorem State.appendGap_time (s : State) (g : Nat) :
    (s.appendGap g).time = s.time := by
  unfold State.appendGap; split <;> rfl
@[simp] theorem State.appendGap_drawn (s : State) (g : Nat) :
    (s.appendGap g).drawn = s.drawn := by
  unfold State.appendGap; split <;> rfl

/-! ### openRecord -/

@[simp] theorem State.openRecord_pending (s : State) (g o : Nat) :
    (s.openRecord g o).pending = s.pending := by
  unfold State.openRecord; split <;> rfl
@[simp] theorem State.openRecord_fuses (s : State) (g o : Nat) :
    (s.openRecord g o).fuses = s.fuses := by
  unfold State.openRecord; split <;> rfl
@[simp] theorem State.openRecord_advance (s : State) (g o : Nat) :
    (s.openRecord g o).advance = s.advance := by
  unfold State.openRecord; split <;> rfl
@[simp] theorem State.openRecord_control (s : State) (g o : Nat) :
    (s.openRecord g o).control = s.control := by
  unfold State.openRecord; split <;> rfl
@[simp] theorem State.openRecord_classTable (s : State) (g o : Nat) :
    (s.openRecord g o).classTable = s.classTable := by
  unfold State.openRecord; split <;> rfl
@[simp] theorem State.openRecord_settings (s : State) (g o : Nat) :
    (s.openRecord g o).settings = s.settings := by
  unfold State.openRecord; split <;> rfl
@[simp] theorem State.openRecord_lock (s : State) (g o : Nat) :
    (s.openRecord g o).lock = s.lock := by
  unfold State.openRecord; split <;> rfl
@[simp] theorem State.openRecord_port0 (s : State) (g o : Nat) :
    (s.openRecord g o).port0 = s.port0 := by
  unfold State.openRecord; split <;> rfl
@[simp] theorem State.openRecord_port1 (s : State) (g o : Nat) :
    (s.openRecord g o).port1 = s.port1 := by
  unfold State.openRecord; split <;> rfl
@[simp] theorem State.openRecord_transaction (s : State) (g o : Nat) :
    (s.openRecord g o).transaction = s.transaction := by
  unfold State.openRecord; split <;> rfl
@[simp] theorem State.openRecord_delivered (s : State) (g o : Nat) :
    (s.openRecord g o).delivered = s.delivered := by
  unfold State.openRecord; split <;> rfl
@[simp] theorem State.openRecord_regions (s : State) (g o : Nat) :
    (s.openRecord g o).regions = s.regions := by
  unfold State.openRecord; split <;> rfl
@[simp] theorem State.openRecord_segments (s : State) (g o : Nat) :
    (s.openRecord g o).segments = s.segments := by
  unfold State.openRecord; split <;> rfl
@[simp] theorem State.openRecord_engine (s : State) (g o : Nat) :
    (s.openRecord g o).engine = s.engine := by
  unfold State.openRecord; split <;> rfl
@[simp] theorem State.openRecord_gates (s : State) (g o : Nat) :
    (s.openRecord g o).gates = s.gates := by
  unfold State.openRecord; split <;> rfl
@[simp] theorem State.openRecord_faults (s : State) (g o : Nat) :
    (s.openRecord g o).faults = s.faults := by
  unfold State.openRecord; split <;> rfl
@[simp] theorem State.openRecord_alert (s : State) (g o : Nat) :
    (s.openRecord g o).alert = s.alert := by
  unfold State.openRecord; split <;> rfl
@[simp] theorem State.openRecord_buffer (s : State) (g o : Nat) :
    (s.openRecord g o).buffer = s.buffer := by
  unfold State.openRecord; split <;> rfl
@[simp] theorem State.openRecord_power (s : State) (g o : Nat) :
    (s.openRecord g o).power = s.power := by
  unfold State.openRecord; split <;> rfl
@[simp] theorem State.openRecord_lines (s : State) (g o : Nat) :
    (s.openRecord g o).lines = s.lines := by
  unfold State.openRecord; split <;> rfl
@[simp] theorem State.openRecord_time (s : State) (g o : Nat) :
    (s.openRecord g o).time = s.time := by
  unfold State.openRecord; split <;> rfl
@[simp] theorem State.openRecord_drawn (s : State) (g o : Nat) :
    (s.openRecord g o).drawn = s.drawn := by
  unfold State.openRecord; split <;> rfl

/-! ### touch -/

@[simp] theorem State.touch_pending (s : State) (g : Nat) :
    (s.touch g).pending = s.pending := by
  unfold State.touch; split <;> rfl
@[simp] theorem State.touch_fuses (s : State) (g : Nat) :
    (s.touch g).fuses = s.fuses := by
  unfold State.touch; split <;> rfl
@[simp] theorem State.touch_advance (s : State) (g : Nat) :
    (s.touch g).advance = s.advance := by
  unfold State.touch; split <;> rfl
@[simp] theorem State.touch_control (s : State) (g : Nat) :
    (s.touch g).control = s.control := by
  unfold State.touch; split <;> rfl
@[simp] theorem State.touch_classTable (s : State) (g : Nat) :
    (s.touch g).classTable = s.classTable := by
  unfold State.touch; split <;> rfl
@[simp] theorem State.touch_settings (s : State) (g : Nat) :
    (s.touch g).settings = s.settings := by
  unfold State.touch; split <;> rfl
@[simp] theorem State.touch_lock (s : State) (g : Nat) :
    (s.touch g).lock = s.lock := by
  unfold State.touch; split <;> rfl
@[simp] theorem State.touch_port0 (s : State) (g : Nat) :
    (s.touch g).port0 = s.port0 := by
  unfold State.touch; split <;> rfl
@[simp] theorem State.touch_port1 (s : State) (g : Nat) :
    (s.touch g).port1 = s.port1 := by
  unfold State.touch; split <;> rfl
@[simp] theorem State.touch_transaction (s : State) (g : Nat) :
    (s.touch g).transaction = s.transaction := by
  unfold State.touch; split <;> rfl
@[simp] theorem State.touch_delivered (s : State) (g : Nat) :
    (s.touch g).delivered = s.delivered := by
  unfold State.touch; split <;> rfl
@[simp] theorem State.touch_segments (s : State) (g : Nat) :
    (s.touch g).segments = s.segments := by
  unfold State.touch; split <;> rfl
@[simp] theorem State.touch_pool (s : State) (g : Nat) :
    (s.touch g).pool = s.pool := by
  unfold State.touch; split <;> rfl
@[simp] theorem State.touch_engine (s : State) (g : Nat) :
    (s.touch g).engine = s.engine := by
  unfold State.touch; split <;> rfl
@[simp] theorem State.touch_gates (s : State) (g : Nat) :
    (s.touch g).gates = s.gates := by
  unfold State.touch; split <;> rfl
@[simp] theorem State.touch_faults (s : State) (g : Nat) :
    (s.touch g).faults = s.faults := by
  unfold State.touch; split <;> rfl
@[simp] theorem State.touch_alert (s : State) (g : Nat) :
    (s.touch g).alert = s.alert := by
  unfold State.touch; split <;> rfl
@[simp] theorem State.touch_buffer (s : State) (g : Nat) :
    (s.touch g).buffer = s.buffer := by
  unfold State.touch; split <;> rfl
@[simp] theorem State.touch_power (s : State) (g : Nat) :
    (s.touch g).power = s.power := by
  unfold State.touch; split <;> rfl
@[simp] theorem State.touch_lines (s : State) (g : Nat) :
    (s.touch g).lines = s.lines := by
  unfold State.touch; split <;> rfl
@[simp] theorem State.touch_time (s : State) (g : Nat) :
    (s.touch g).time = s.time := by
  unfold State.touch; split <;> rfl
@[simp] theorem State.touch_drawn (s : State) (g : Nat) :
    (s.touch g).drawn = s.drawn := by
  unfold State.touch; split <;> rfl

/-! ### tick -/

@[simp] theorem State.tick_pending (s : State) :
    (s.tick).pending = s.pending := by
  unfold State.tick; split <;> rfl
@[simp] theorem State.tick_fuses (s : State) :
    (s.tick).fuses = s.fuses := by
  unfold State.tick; split <;> rfl
@[simp] theorem State.tick_advance (s : State) :
    (s.tick).advance = s.advance := by
  unfold State.tick; split <;> rfl
@[simp] theorem State.tick_control (s : State) :
    (s.tick).control = s.control := by
  unfold State.tick; split <;> rfl
@[simp] theorem State.tick_classTable (s : State) :
    (s.tick).classTable = s.classTable := by
  unfold State.tick; split <;> rfl
@[simp] theorem State.tick_settings (s : State) :
    (s.tick).settings = s.settings := by
  unfold State.tick; split <;> rfl
@[simp] theorem State.tick_lock (s : State) :
    (s.tick).lock = s.lock := by
  unfold State.tick; split <;> rfl
@[simp] theorem State.tick_port0 (s : State) :
    (s.tick).port0 = s.port0 := by
  unfold State.tick; split <;> rfl
@[simp] theorem State.tick_port1 (s : State) :
    (s.tick).port1 = s.port1 := by
  unfold State.tick; split <;> rfl
@[simp] theorem State.tick_transaction (s : State) :
    (s.tick).transaction = s.transaction := by
  unfold State.tick; split <;> rfl
@[simp] theorem State.tick_delivered (s : State) :
    (s.tick).delivered = s.delivered := by
  unfold State.tick; split <;> rfl
@[simp] theorem State.tick_regions (s : State) :
    (s.tick).regions = s.regions := by
  unfold State.tick; split <;> rfl
@[simp] theorem State.tick_segments (s : State) :
    (s.tick).segments = s.segments := by
  unfold State.tick; split <;> rfl
@[simp] theorem State.tick_pool (s : State) :
    (s.tick).pool = s.pool := by
  unfold State.tick; split <;> rfl
@[simp] theorem State.tick_engine (s : State) :
    (s.tick).engine = s.engine := by
  unfold State.tick; split <;> rfl
@[simp] theorem State.tick_gates (s : State) :
    (s.tick).gates = s.gates := by
  unfold State.tick; split <;> rfl
@[simp] theorem State.tick_faults (s : State) :
    (s.tick).faults = s.faults := by
  unfold State.tick; split <;> rfl
@[simp] theorem State.tick_alert (s : State) :
    (s.tick).alert = s.alert := by
  unfold State.tick; split <;> rfl
@[simp] theorem State.tick_buffer (s : State) :
    (s.tick).buffer = s.buffer := by
  unfold State.tick; split <;> rfl
@[simp] theorem State.tick_power (s : State) :
    (s.tick).power = s.power := by
  unfold State.tick; split <;> rfl
@[simp] theorem State.tick_lines (s : State) :
    (s.tick).lines = s.lines := by
  unfold State.tick; split <;> rfl
@[simp] theorem State.tick_drawn (s : State) :
    (s.tick).drawn = s.drawn := by
  unfold State.tick; split <;> rfl

/-! ### The port that a port update names -/

@[simp] theorem State.setPort_same (s : State) (p : Port) (q : PortState) : (s.setPort p q).port p = q := by
  cases p <;> rfl

@[simp] theorem State.setPort_other (s : State) (p : Port) (q : PortState) :
    (s.setPort p q).port (otherPort p) = s.port (otherPort p) := by cases p <;> rfl

theorem State.setPort_port_of_ne (s : State) {p r : Port} (q : PortState) (h : r ≠ p) :
    (s.setPort p q).port r = s.port r := by cases p <;> cases r <;> first | rfl | exact absurd rfl h

end Sys2Proof.Machine
end

