-- ==== Sys2Proof/Laws/Ops.lean ====
section
/-! SUPPORT. One lemma per shared operation that says which fields it can change: the state after it is
the state before with those fields replaced. A proof takes the equation and reads every other field off. -/

namespace Sys2Proof.Machine

/-! ## Ports and reads -/

theorem State.setPort_frame (s : State) (p : Port) (q : PortState) :
    ∃ a b, s.setPort p q = { s with port0 := a, port1 := b } := by
  cases p
  · exact ⟨q, s.port1, rfl⟩
  · exact ⟨s.port0, q, rfl⟩

theorem State.closeRead_frame (s : State) :
    ∃ a b, s.closeRead = { s with port0 := a, port1 := b, engine := { s.engine with read := none } } := by
  unfold State.closeRead
  split
  · next h => exact ⟨s.port0, s.port1, by
      obtain ⟨pe, fu, ad, co, ct, se, lo, p0, p1, tr, de, re, sg, po, en, ga, fa, al, bu, pw, li, ti, dr⟩ := s
      obtain ⟨jo, rd, cu, tm, du, fm, w0, w1⟩ := en
      have h : rd = none := h
      subst h; rfl⟩
  · next r h =>
    obtain ⟨a, b, e⟩ := s.setPort_frame r.port (s.port r.port).idle
    exact ⟨a, b, by rw [e]⟩

theorem State.endRead_frame (s : State) :
    ∃ a b, s.endRead =
      { s with port0 := a, port1 := b, engine := { s.engine with read := none, job := .idle } } := by
  obtain ⟨a, b, e⟩ := s.closeRead_frame
  exact ⟨a, b, by unfold State.endRead; rw [e]⟩

theorem State.startRead_frame (s : State) (j : Job) (r : FetchRead) :
    ∃ a b, s.startRead j r =
      { s with port0 := a, port1 := b, engine := { s.engine with job := j, read := some r } } := by
  obtain ⟨a, b, e⟩ := s.setPort_frame r.port (s.port r.port).taken
  exact ⟨a, b, by unfold State.startRead; rw [e]⟩

/-! ## Gates -/

@[simp] theorem State.sequenceStart_start (s : State) : s.sequenceStart.start = s.time := rfl

@[simp] theorem State.sequenceStart_interval (s : State) :
    s.sequenceStart.interval = s.settings.interval := rfl

/-- An expiry of the replaced timer may come at the instant of the start alone (R145). -/
theorem SequenceTimer.awaitsReplaced_iff (t : SequenceTimer) (now : Time) :
    t.awaitsReplaced now = true ↔ t.superseded = true ∧ t.start = now := by
  simp [SequenceTimer.awaitsReplaced]

theorem State.confirmBoot_frame (s : State) :
    ∃ g e f, s.confirmBoot = { s with
      control := { s.control with bootConfirmed := true },
      gates := { s.gates with deadline := g },
      engine := { s.engine with timer := e, due := f } } := by
  unfold State.confirmBoot
  split
  · next h => exact ⟨s.gates.deadline, s.engine.timer, s.engine.due, by
      obtain ⟨pe, fu, ad, co, ct, se, lo, p0, p1, tr, de, re, sg, po, en, ga, fa, al, bu, pw, li, ti, dr⟩ := s
      obtain ⟨c1, c2, c3, c4, c5, c6, c7, c8, c9⟩ := co
      subst h; rfl⟩
  · exact ⟨.disarmed, _, _, rfl⟩

/-- What the print gate's move can change: its state, its timer and lines, and, at the first ON after
reset, boot-confirmed, the deadline and the patrol timer. -/
theorem State.settlePrint_frame (s : State) :
    ∃ st t d p a b e f, s.settlePrint = { s with
      gates := { s.gates with print := { s.gates.print with state := st }, timer := t, deadline := d },
      lines := { s.lines with epwr := p, earm := a },
      control := { s.control with bootConfirmed := b },
      engine := { s.engine with timer := e, due := f } } := by
  have same : ∃ st t d p a b e f, s = { s with
      gates := { s.gates with print := { s.gates.print with state := st }, timer := t, deadline := d },
      lines := { s.lines with epwr := p, earm := a },
      control := { s.control with bootConfirmed := b },
      engine := { s.engine with timer := e, due := f } } :=
    ⟨_, _, _, _, _, _, s.engine.timer, s.engine.due, rfl⟩
  have move : ∀ st t, ∃ st' t' d p a b e f, s.setPrint st t = { s with
      gates := { s.gates with print := { s.gates.print with state := st' }, timer := t', deadline := d },
      lines := { s.lines with epwr := p, earm := a },
      control := { s.control with bootConfirmed := b },
      engine := { s.engine with timer := e, due := f } } := fun st t =>
    ⟨st, t, _, _, _, _, s.engine.timer, s.engine.due, rfl⟩
  unfold State.settlePrint
  split
  · unfold State.printRising
    split
    · obtain ⟨g, e, f, h⟩ := (s.setPrint .on none).confirmBoot_frame
      exact ⟨.on, none, g, _, _, true, e, f, by unfold State.printOn; rw [h]; rfl⟩
    · exact move _ _
  · unfold State.printRising
    split
    · obtain ⟨g, e, f, h⟩ := (s.setPrint .on none).confirmBoot_frame
      exact ⟨.on, none, g, _, _, true, e, f, by unfold State.printOn; rw [h]; rfl⟩
    · exact move _ _
  · unfold State.printFalling
    split <;> exact move _ _
  · unfold State.printFalling
    split <;> exact move _ _
  all_goals exact same

theorem State.settleScan_frame (s : State) :
    ∃ st, (st = .off ∨ st = .on) ∧ s.settleScan = { s with
      gates := { s.gates with scan := { s.gates.scan with state := st } },
      lines := { s.lines with scnen := st.arms } } := by
  unfold State.settleScan
  split
  · exact ⟨.on, .inr rfl, rfl⟩
  · exact ⟨.off, .inl rfl, rfl⟩

/-- What both gates' moves can change. -/
theorem State.settleGates_frame (s : State) :
    ∃ p q t d x y z b e f, s.settleGates = { s with
      gates := { s.gates with print := { s.gates.print with state := p },
                              scan := { s.gates.scan with state := q }, timer := t, deadline := d },
      lines := { s.lines with epwr := x, earm := y, scnen := z },
      control := { s.control with bootConfirmed := b },
      engine := { s.engine with timer := e, due := f } } := by
  obtain ⟨st, t, d, p, a, b, e, f, h⟩ := s.settlePrint_frame
  obtain ⟨q, -, k⟩ := s.settlePrint.settleScan_frame
  refine ⟨st, q, t, d, p, a, q.arms, b, e, f, ?_⟩
  unfold State.settleGates
  rw [k, h]

/-! ## HALTED, RECOVERY, DOZE -/

theorem State.cutAdvance_frame (s : State) :
    ∃ f n, s.cutAdvance = { s with fuses := f, advance := [], drawn := n } := by
  unfold State.cutAdvance
  split
  · next h => exact ⟨s.fuses, s.drawn, by cases s; simp_all⟩
  · exact ⟨_, _, rfl⟩

theorem State.enterHalted_frame (s : State) :
    ∃ f n, s.enterHalted = { s with
      fuses := f, advance := [], drawn := n,
      control := { s.control with phase := .halted, step := .done },
      lines := { s.lines with crst := true, epwr := false, earm := false, scnen := false },
      gates := { s.gates with print := { s.gates.print with state := .off },
                              scan := { s.gates.scan with state := .off }, timer := none,
                              deadline := .disarmed },
      alert := { asserted := true, pendingPulses := 0, timing := .idle },
      port0 := s.port0.idle, port1 := s.port1.idle, transaction := none,
      engine := { s.engine with job := .idle, read := none },
      pool := { s.pool with record := none } } := by
  obtain ⟨f, n, h⟩ := s.cutAdvance_frame
  exact ⟨f, n, by unfold State.enterHalted; rw [h]; rfl⟩

theorem State.enterRecovery_frame (s : State) :
    ∃ a b, s.enterRecovery = { s with
      control := { s.control with
        phase := .recovery, step := .done, pending0 := none, pending1 := none, candidates := [],
        context := none, differences := zeroDifferences, manifest := none },
      classTable := [], regions := [], segments := [], pool := Pool.afterReset,
      settings := Settings.afterReset,
      alert := s.alert.changeMode s.settings.alertMode .level s.faults.length s.time,
      engine := { s.engine with job := .idle, read := none,
                                timer := { s.engine.timer with start := none }, due := false,
                                wake0 := none, wake1 := none },
      gates := { s.gates with print := ⟨.off, s.gates.print.latch, 0⟩,
                              scan := ⟨.off, s.gates.scan.latch, 0⟩, timer := none,
                              deadline := .disarmed },
      lines := { s.lines with crst := false, epwr := false, earm := false, scnen := false },
      port0 := a, port1 := b } := by
  unfold State.enterRecovery
  split
  · exact ⟨_, _, rfl⟩
  · exact ⟨_, _, rfl⟩

theorem State.completeDoze_frame (s : State) :
    ∃ p a b t, s.completeDoze = { s with power := p, port0 := a, port1 := b, transaction := t } := by
  unfold State.completeDoze
  split
  · exact ⟨_, _, _, _, rfl⟩
  · exact ⟨_, _, _, _, rfl⟩

theorem State.enterDoze_frame (s : State) :
    ∃ p a b t sg g l c e, s.enterDoze = { s with
      power := p, port0 := a, port1 := b, transaction := t, segments := sg, pool := Pool.afterReset,
      gates := g, lines := l, control := c, engine := e } := by
  unfold State.enterDoze
  obtain ⟨a, b, h⟩ := s.endRead_frame
  rw [h]
  dsimp only [State.disarm]
  generalize hu : ({ s with
      port0 := a, port1 := b,
      gates := { s.gates with deadline := .disarmed }
      power := { s.power with state := .enteringDoze }
      segments := discardedSegments s.segments s.pool
      engine := { s.engine with read := none, job := .idle, cursor := cursorAfterDiscard s.pool s.engine.cursor }
      pool := Pool.afterReset } : State) = u
  obtain ⟨p, q, t, d, l1, l2, l3, bb, e, f, k⟩ := u.settleGates_frame
  obtain ⟨pw, x, y, tr, m⟩ := u.settleGates.completeDoze_frame
  rw [m, k, ← hu]
  exact ⟨_, _, _, _, _, _, _, _, _, rfl⟩

/-! ## The pool -/

theorem State.setSegState_frame (s : State) (g : Nat) (st : SegState) :
    ∃ sg, s.setSegState g st = { s with segments := sg } := ⟨_, rfl⟩

theorem State.appendGap_frame (s : State) (g : Nat) :
    ∃ l, s.appendGap g = { s with pool := { s.pool with gaps := l } } := by
  unfold State.appendGap
  split
  · exact ⟨s.pool.gaps, rfl⟩
  · exact ⟨_, rfl⟩

theorem State.pushFault_frame (s : State) (k : FaultKind) (r g a : Option Nat) (d : Byte) :
    ∃ f l, s.pushFault k r g a d = { s with faults := f, alert := l } := by
  unfold State.pushFault
  split
  · exact ⟨s.faults, s.alert, rfl⟩
  · exact ⟨_, _, rfl⟩

theorem State.evict_frame (s : State) (i : Nat) :
    ∃ a b e sg sl gp, s.evict i = { s with
      port0 := a, port1 := b, engine := e, segments := sg,
      pool := { s.pool with slots := sl, gaps := gp } } := by
  unfold State.evict
  split
  · exact ⟨_, _, _, _, _, _, rfl⟩
  · next c _ =>
    have h : ∃ a b e, (if c.source = .fetch then s.endRead else s) =
        { s with port0 := a, port1 := b, engine := e } := by
      split
      · obtain ⟨a, b, h⟩ := s.endRead_frame
        exact ⟨a, b, _, h⟩
      · exact ⟨_, _, _, rfl⟩
    obtain ⟨a, b, e, h⟩ := h
    dsimp only
    rw [h]
    split
    · obtain ⟨l, k⟩ := (({ s with port0 := a, port1 := b, engine := e } : State).setSlot i none
        |>.setSegState c.seg .unseen).appendGap_frame c.seg
      rw [k]
      exact ⟨_, _, _, _, _, _, rfl⟩
    · exact ⟨_, _, _, _, _, _, rfl⟩

theorem State.writeVerdict_frame (s : State) (i : Nat) (c : Context) (e : SegEntry) (st : Stream) :
    ∃ sg sl gp f l x y, s.writeVerdict i c e st = { s with
      segments := sg, pool := { s.pool with slots := sl, gaps := gp }, faults := f, alert := l,
      gates := { s.gates with print := { s.gates.print with latch := x },
                              scan := { s.gates.scan with latch := y } } } := by
  unfold State.writeVerdict
  dsimp only
  split
  · exact ⟨_, _, _, _, _, _, _, rfl⟩
  · obtain ⟨f, l, h⟩ := (((s.setSegState c.seg (verdict (decide (c.digest.final = e.digest)))).setSlot i
      none).purgeGap c.seg).pushFault_frame c.role.mismatch (some e.region) (some c.seg)
      (some (c.seg * segmentBytes)) st.code
    rw [h]
    exact ⟨_, _, _, _, _, _, _, rfl⟩

/-- What a byte that reaches a context can bring about: the context moves on, its verdict is written, or
the part enters HALTED. -/
theorem State.extend_cases (s : State) (i : Nat) (b : Byte) (st : Stream) :
    s.extend i b st = s ∨
      ∃ c, s.pool.context i = some c ∧
        let d := { c with fill := c.fill + 1, lastAdvance := s.time, digest := c.digest.push b }
        (d.fill ≠ segmentBytes ∧ s.extend i b st = s.setSlot i (some d)) ∨
          (d.fill = segmentBytes ∧ ∃ e, s.entry c.seg = some e ∧
            (s.extend i b st = s.writeVerdict i d e st ∨ s.extend i b st = s.enterHalted)) := by
  unfold State.extend
  split
  · exact .inl rfl
  · next c hc =>
    dsimp only
    split
    · next hf =>
      unfold State.finalise
      split
      · exact .inl rfl
      · next e he =>
        refine .inr ⟨c, hc, .inr ⟨hf, e, he, ?_⟩⟩
        split
        · exact .inl rfl
        · exact .inr rfl
    · next hf => exact .inr ⟨c, hc, .inl ⟨hf, rfl⟩⟩

/-! ## The engine -/

/-- A judgment can change the ports, the segment states, the pool and the engine alone. -/
theorem State.judgeWith_frame (n : Nat) (s : State) :
    ∃ a b e sg sl gp, State.judgeWith n s = { s with
      port0 := a, port1 := b, engine := e, segments := sg,
      pool := { s.pool with slots := sl, gaps := gp } } := by
  have same : ∀ s : State, ∃ a b e sg sl gp, s = { s with
      port0 := a, port1 := b, engine := e, segments := sg,
      pool := { s.pool with slots := sl, gaps := gp } } := fun s => ⟨_, _, _, _, _, _, rfl⟩
  have start : ∀ (s : State) (e : Engine) sg sl gp j r,
      ∃ a b e' sg' sl' gp', ({ s with
          engine := e, segments := sg,
          pool := { s.pool with slots := sl, gaps := gp } } : State).startRead j r = { s with
        port0 := a, port1 := b, engine := e', segments := sg',
        pool := { s.pool with slots := sl', gaps := gp' } } := by
    intro s e sg sl gp j r
    obtain ⟨a, b, h⟩ := ({ s with
      engine := e, segments := sg,
      pool := { s.pool with slots := sl, gaps := gp } } : State).startRead_frame j r
    exact ⟨a, b, _, _, _, _, h⟩
  have resume : ∀ (s : State) i, ∃ a b e sg sl gp, s.resume i = { s with
      port0 := a, port1 := b, engine := e, segments := sg,
      pool := { s.pool with slots := sl, gaps := gp } } := by
    intro s i
    unfold State.resume
    split
    · exact same s
    · dsimp only
      split
      · exact start s s.engine s.segments _ _ _ _
      · exact start s s.engine s.segments _ s.pool.gaps _ _
  induction n generalizing s with
  | zero => exact same s
  | succ n ih =>
    unfold State.judgeWith
    split
    · split
      · unfold State.startFill
        split
        · exact same s
        · exact start s s.engine _ _ _ _ _
      · exact resume s _
      · exact resume s _
      · next i _ =>
        obtain ⟨a, b, e, sg, sl, gp, h⟩ := ih (s.freePatrol i)
        rw [h]
        unfold State.freePatrol
        split
        · exact ⟨_, _, _, _, _, _, rfl⟩
        · exact ⟨_, _, _, _, _, _, rfl⟩
      · unfold State.startPatrol
        split
        · exact same s
        · exact start s _ s.segments _ s.pool.gaps _ _
      · exact same s
    · exact same s

theorem State.judge_frame (s : State) :
    ∃ a b e sg sl gp, s.judge = { s with
      port0 := a, port1 := b, engine := e, segments := sg,
      pool := { s.pool with slots := sl, gaps := gp } } := State.judgeWith_frame 2 s

end Sys2Proof.Machine
end

