-- ==== Sys2Proof/Laws/Authentication.lean ====
section
/-! SUPPORT. What the evaluation of the candidates and the release of the ports do: one lemma for a run
of rejected candidates, one for the candidate whose body is read, one for the entry to RECOVERY. -/

namespace Sys2Proof.Machine

/-- The rejections of a list of candidates, each with its reason, in order (R64). -/
def State.rejectEach (s : State) (l : List (Candidate × RejectReason)) : State :=
  l.foldl (fun t e => t.reject e.1.anchor e.2 0) s

@[simp] theorem State.reject_fuses (s : State) (a : Anchor) (r : RejectReason) (k : Nat) :
    (s.reject a r k).fuses = s.fuses := by
  unfold State.reject State.pushFault; split <;> rfl

/-- Outside HALTED a rejection pushes its record and the alert line follows, and nothing else changes. -/
theorem State.reject_eq {s : State} (h : s.control.phase ≠ .halted) (a : Anchor) (r : RejectReason)
    (k : Nat) : s.reject a r k = { s with
      faults := pushRecord s.faults
        ⟨.manifestRejected, s.time, s.control.phase, none, none, none, rejectDetail a r k⟩
      alert := s.alert.push s.settings.alertMode s.time } := by
  unfold State.reject State.pushFault; rw [if_neg h]

/-- The first candidate's header fails a check: it is rejected and the others are evaluated. -/
theorem State.evaluate_reject {s : State} {c : Candidate} {r : RejectReason}
    (h : headerReject s.fuses c.header = some r) (rest : List Candidate) :
    s.evaluate (c :: rest) = (s.reject c.anchor r 0).evaluate rest := by
  conv => lhs; unfold State.evaluate
  rw [h]

/-- The first candidate's header passes its checks: its body is read. -/
theorem State.evaluate_pass {s : State} {c : Candidate} (h : headerReject s.fuses c.header = none)
    (rest : List Candidate) :
    s.evaluate (c :: rest) = (s.setCandidates (c :: rest)).startRead .manifest (s.fuses.bodyRead c) := by
  unfold State.evaluate; rw [h]

/-- With no candidate left the part enters RECOVERY on a NO_MANIFEST record. -/
theorem State.evaluate_nil (s : State) :
    s.evaluate [] = ((s.setCandidates []).pushFault .noManifest none none none 0).enterRecovery := rfl

/-- Candidates whose headers fail are rejected one after the other, in list order. -/
theorem State.evaluate_rejected (f : Fuses) (rejected : List Candidate) :
    ∀ (s : State) (reasons : List RejectReason) (rest : List Candidate), s.fuses = f →
      rejected.map (fun c => headerReject f c.header) = reasons.map some →
      s.evaluate (rejected ++ rest) = (s.rejectEach (rejected.zip reasons)).evaluate rest := by
  induction rejected with
  | nil => intro s reasons rest _ _; simp [State.rejectEach]
  | cons c l ih =>
    intro s reasons rest hf h
    cases reasons with
    | nil => cases h
    | cons r q =>
      simp only [List.map_cons, List.cons.injEq] at h
      rw [List.cons_append, State.evaluate_reject (r := r) (by rw [hf]; exact h.1)]
      exact ih (s.reject c.anchor r 0) q rest (by rw [State.reject_fuses, hf]) h.2

/-- What a list of rejections pushes, outside HALTED. -/
theorem State.rejectEach_eq (l : List (Candidate × RejectReason)) :
    ∀ s : State, s.control.phase ≠ .halted → s.rejectEach l = { s with
      faults := l.foldl (fun f e => pushRecord f
        ⟨.manifestRejected, s.time, s.control.phase, none, none, none, rejectDetail e.1.anchor e.2 0⟩)
        s.faults
      alert := l.foldl (fun a _ => a.push s.settings.alertMode s.time) s.alert } := by
  induction l with
  | nil => intro s _; rfl
  | cons e q ih =>
    intro s h
    show (s.reject e.1.anchor e.2 0).rejectEach q = _
    rw [State.reject_eq h]
    exact ih _ h

/-- A port at the release of the controller depends on its upstream chip select, not on who owned it. -/
@[simp] theorem PortState.released_idle (q : PortState) : q.idle.released = q.released := rfl

/-- Entry to RECOVERY from HOLD gives owner and availability afresh from the chip selects (R21, R67). -/
theorem State.enterRecovery_ports {s : State} (h : s.control.phase = .hold) :
    s.enterRecovery.port0 = s.port0.released ∧ s.enterRecovery.port1 = s.port1.released := by
  unfold State.enterRecovery; rw [if_pos h]; exact ⟨rfl, rfl⟩

end Sys2Proof.Machine
end

