-- ==== Sys2Proof/Laws/Manifest.lean ====
section
/-! SUPPORT. What the reading of a manifest's bytes gives: fields of a slice, single bytes, flag fields,
address bytes, and the order of the segments in the digest list. -/

namespace Sys2Proof.Machine

/-- A field of a slice is the field at the sum of the offsets. -/
theorem field_slice (b : List Byte) {a n o w : Nat} (h : o + w ≤ n) :
    field ((b.drop a).take n) o w = field b (a + o) w := by
  unfold field
  rw [List.drop_take, List.take_take, List.drop_drop, Nat.min_eq_left (by omega)]

/-- A field of width 1 is its byte. -/
theorem field_one (b : List Byte) (i : Nat) : field b i 1 = (byteAt b i).toNat := by
  unfold field byteAt
  rcases Nat.lt_or_ge i b.length with h | h
  · have e : b.getD i 0 = b[i] := by simp [List.getD, List.getElem?_eq_getElem h]
    rw [List.drop_eq_getElem_cons h, e]; rfl
  · have e : b.getD i 0 = 0 := by simp [List.getD, List.getElem?_eq_none h]
    rw [List.drop_eq_nil_of_le h, e]; rfl

/-- A byte of a slice is the byte at the sum of the offsets. -/
theorem byteAt_slice (b : List Byte) {a n o : Nat} (h : o < n) :
    byteAt ((b.drop a).take n) o = byteAt b (a + o) := by
  have e := field_slice b (a := a) (n := n) (o := o) (w := 1) h
  rw [field_one, field_one] at e
  exact BitVec.eq_of_toNat_eq e

/-- A field of width 2 is its two bytes, the less significant first. -/
theorem field_two (b : List Byte) (i : Nat) :
    field b i 2 = (byteAt b i).toNat + 256 * (byteAt b (i + 1)).toNat := by
  rw [← field_one b (i + 1), ← field_one b i]
  unfold field
  rcases Nat.lt_or_ge i b.length with h | h
  · rw [List.drop_eq_getElem_cons h]
    cases e : b.drop (i + 1) <;> simp [leNat]
  · rw [List.drop_eq_nil_of_le h, List.drop_eq_nil_of_le (Nat.le_succ_of_le h)]; rfl

/-- The flags of a 16-bit field are its bits. -/
theorem flags16_bit (b : List Byte) (i k : Nat) :
    (flags16 (byteAt b i) (byteAt b (i + 1))).getLsbD k = (field b i 2).testBit k := by
  have e : flags16 (byteAt b i) (byteAt b (i + 1)) = BitVec.ofNat 16 (field b i 2) := by
    apply BitVec.eq_of_toNat_eq
    have h1 := (byteAt b i).isLt
    have h2 := (byteAt b (i + 1)).isLt
    rw [field_two, BitVec.toNat_ofNat]
    unfold flags16
    rw [BitVec.toNat_append, Nat.mod_eq_of_lt (by omega),
      ← Nat.shiftLeft_add_eq_or_of_lt h1, Nat.shiftLeft_eq]
    omega
  have h1 := (byteAt b i).isLt
  have h2 := (byteAt b (i + 1)).isLt
  rw [e, BitVec.getLsbD_ofNat]
  rcases Nat.lt_or_ge k 16 with h | h
  · simp [h]
  · have : field b i 2 < 2 ^ k :=
      Nat.lt_of_lt_of_le (by rw [field_two]; omega) (Nat.pow_le_pow_right (by omega) h)
    rw [Nat.testBit_lt_two_pow this, Bool.and_false]

/-- An address sent in `n` bytes, most significant first, reads back modulo its width (R34, R9). -/
theorem addressValue_beBytes (n v : Nat) : addressValue (beBytes n v) = v % 256 ^ n := by
  induction n generalizing v with
  | zero => simp [beBytes, leBytes, addressValue, Nat.mod_one]
  | succ n ih =>
    have e : beBytes (n + 1) v = beBytes n (v / 256) ++ [BitVec.ofNat 8 v] := by
      simp [beBytes, leBytes]
    have fold : ∀ l : List Byte, ∀ x : Byte, addressValue (l ++ [x]) = addressValue l * 256 + x.toNat := by
      intro l x; simp [addressValue]
    have m : v % 256 ^ (n + 1) = v % 256 + 256 * (v / 256 % 256 ^ n) := by
      rw [Nat.pow_succ', Nat.mod_mul]
    rw [e, fold, ih, BitVec.toNat_ofNat, m]
    omega

end Sys2Proof.Machine
end

