-- ==== Sys2Proof/Laws/Pool.lean ====
section
/-! SUPPORT. What the choices over the context pool answer: the free slot, the holder of a segment, the
PATROL context, the oldest VERIFY context, and the engine's judgment. -/

namespace Sys2Proof.Machine

/-- A port is free for a fill or patrol read when it is available and nobody owns it (R21). -/
theorem State.portFree_iff (s : State) (p : Port) : s.portFree p = true ↔ (s.port p).available = true ∧ (s.port p).owner = .nobody := by
  simp [State.portFree]

/-- The engine judges in RUN and ACTIVE with job IDLE (R121). -/
theorem State.engineFree_of {s : State} (h1 : s.control.phase = .run) (h2 : s.power.state = .active) (h3 : s.engine.job = .idle) : s.engineFree = true := by
  simp [State.engineFree, h1, h2, h3]

/-- A free context makes the free slot exist. -/
theorem Pool.freeSlot_isSome {p : Pool} (h : ∃ i, i < p.slots.length ∧ p.context i = none) : p.freeSlot.isSome = true := by
  obtain ⟨i, hi, hc⟩ := h
  unfold Pool.freeSlot
  rw [List.findIdx?_isSome, List.any_eq_true]
  refine ⟨p.slots[i], List.getElem_mem hi, ?_⟩
  unfold Pool.context at hc
  rw [List.getD, List.getElem?_eq_getElem hi] at hc
  simpa using hc

/-- The free slot is a context that is free. -/
theorem Pool.freeSlot_some {p : Pool} {i} (h : p.freeSlot = some i) : i < p.slots.length ∧ p.context i = none := by
  unfold Pool.freeSlot at h
  rw [List.findIdx?_eq_some_iff_getElem] at h
  obtain ⟨hi, hc, _⟩ := h
  refine ⟨hi, ?_⟩
  unfold Pool.context; rw [List.getD, List.getElem?_eq_getElem hi]
  simpa using hc

/-- The free slot exists exactly when some context is free. -/
theorem Pool.freeSlot_iff (p : Pool) : p.freeSlot.isSome = true ↔ ∃ i, i < p.slots.length ∧ p.context i = none :=
  ⟨fun h => by obtain ⟨i, hi⟩ := Option.isSome_iff_exists.1 h; exact ⟨i, Pool.freeSlot_some hi⟩, Pool.freeSlot_isSome⟩

/-- The VERIFY contexts of a pool that meet a test are those listed. -/
theorem Pool.mem_verifyContexts {p : Pool} {test} {i c} : (i, c) ∈ p.verifyContexts test ↔ p.context i = some c ∧ c.role = .verify ∧ test c = true := by
  unfold Pool.verifyContexts Pool.context
  rw [List.mem_filterMap]
  constructor
  · rintro ⟨⟨x, j⟩, hm, he⟩
    rw [List.mk_mem_zipIdx_iff_getElem?] at hm
    cases x with
    | none => simp at he
    | some d =>
      dsimp only at he
      split at he
      · next hc =>
        simp only [Option.some.injEq, Prod.mk.injEq] at he
        obtain ⟨rfl, rfl⟩ := he
        exact ⟨by simp [List.getD, hm], hc⟩
      · cases he
  · rintro ⟨h1, h2, h3⟩
    refine ⟨(some c, i), ?_, ?_⟩
    · rw [List.mk_mem_zipIdx_iff_getElem?]
      unfold List.getD at h1
      cases hx : p.slots[i]? with
      | none => rw [hx] at h1; cases h1
      | some y => rw [hx] at h1; simpa using h1
    · simp [h2, h3]

/-- The VERIFY contexts are listed by ascending number. -/
theorem Pool.verifyContexts_sorted (p : Pool) (test) : (p.verifyContexts test).Pairwise (fun a b => a.1 < b.1) := by
  unfold Pool.verifyContexts
  rw [List.pairwise_filterMap]
  have : p.slots.zipIdx.Pairwise (fun a b => a.2 < b.2) := by
    have := List.pairwise_lt_range' (s := 0) (n := p.slots.length)
    rw [List.pairwise_iff_getElem]
    intro i j hi hj hij
    simp; exact hij
  refine this.imp ?_
  rintro ⟨x, i⟩ ⟨y, j⟩ hij a ha b hb
  dsimp only at *
  cases x <;> cases y <;> simp at ha hb
  obtain ⟨_, rfl⟩ := ha; obtain ⟨_, rfl⟩ := hb; exact hij

/-- Of a list by ascending number, `oldest` gives the context of greatest age, the lowest-numbered among
equals (R103, R124). -/
theorem oldest_spec (now : Time) (l : List (Nat × Context)) (hs : l.Pairwise (fun a b => a.1 < b.1)) :
   (oldest now l = none ↔ l = []) ∧ ∀ e, oldest now l = some e → e ∈ l ∧ ∀ f ∈ l, f.2.age now ≤ e.2.age now ∧ (f.2.age now = e.2.age now → e.1 ≤ f.1) := by
  have key : ∀ (m : List (Nat × Context)) (best : Nat × Context), (best :: m).Pairwise (fun a b => a.1 < b.1) →
     ∃ e, m.foldl (fun acc e =>
    match acc with
    | none => some e
    | some best => if best.2.age now < e.2.age now then some e else some best) (some best) = some e ∧ e ∈ best :: m ∧
       ∀ f ∈ best :: m, f.2.age now ≤ e.2.age now ∧ (f.2.age now = e.2.age now → e.1 ≤ f.1) := by
    intro m
    induction m with
    | nil => intro best _; exact ⟨best, rfl, by simp, by simp⟩
    | cons a m ih =>
      intro best hp
      rw [List.foldl_cons]; dsimp only
      have hp' := hp
      rw [List.pairwise_cons, List.pairwise_cons] at hp
      obtain ⟨h1, h2, h3⟩ := hp
      by_cases hlt : best.2.age now < a.2.age now
      · rw [if_pos hlt]
        obtain ⟨e, he, hm, hall⟩ := ih a (List.pairwise_cons.2 ⟨h2, h3⟩)
        refine ⟨e, he, List.mem_cons_of_mem _ hm, ?_⟩
        intro f hf
        rcases List.mem_cons.1 hf with rfl | hf
        · have := (hall a (by simp)).1
          exact ⟨by omega, fun h => by omega⟩
        · exact hall f hf
      · rw [if_neg hlt]
        have hb : (best :: m).Pairwise (fun a b => a.1 < b.1) := List.pairwise_cons.2 ⟨fun x hx => h1 x (List.mem_cons_of_mem _ hx), h3⟩
        obtain ⟨e, he, hm, hall⟩ := ih best hb
        refine ⟨e, he, ?_, ?_⟩
        · rcases List.mem_cons.1 hm with rfl | hm
          · simp
          · simp [hm]
        · intro f hf
          rcases List.mem_cons.1 hf with rfl | hf
          · exact hall f (by simp)
          · rcases List.mem_cons.1 hf with rfl | hf
            · have hbe := hall best (by simp)
              refine ⟨by omega, fun h => ?_⟩
              have : best.2.age now = e.2.age now := by omega
              have := hbe.2 this
              have := h1 f (by simp)
              omega
            · exact hall f (by simp [hf])
  cases l with
  | nil => simp [oldest]
  | cons a m =>
    obtain ⟨e, he, hm, hall⟩ := key m a hs
    have : oldest now (a :: m) = some e := he
    refine ⟨by simp [this], ?_⟩
    intro e' he'
    rw [this] at he'; cases he'
    exact ⟨hm, hall⟩

/-- With no PATROL context there is no patrol slot. -/
theorem Pool.patrolSlot_none {p : Pool} (h : ∀ j d, p.context j = some d → d.role = .verify) : p.patrolSlot = none := by
  unfold Pool.patrolSlot
  rw [List.findIdx?_eq_none_iff]
  intro x hx
  cases x with
  | none => rfl
  | some d =>
    obtain ⟨j, hj, he⟩ := List.getElem_of_mem hx
    have : p.context j = some d := by unfold Pool.context; rw [List.getD, List.getElem?_eq_getElem hj, he]; rfl
    simp [isPatrol, h j d this]

/-- The patrol slot holds the PATROL context. -/
theorem Pool.patrolSlot_some {p : Pool} {i} (h : p.patrolSlot = some i) : ∃ c, p.context i = some c ∧ c.role = .patrol := by
  unfold Pool.patrolSlot at h
  rw [List.findIdx?_eq_some_iff_getElem] at h
  obtain ⟨hi, hc, _⟩ := h
  cases hx : p.slots[i] with
  | none => rw [hx] at hc; cases hc
  | some c =>
    rw [hx] at hc
    refine ⟨c, by unfold Pool.context; rw [List.getD, List.getElem?_eq_getElem hi, hx]; rfl, by simpa [isPatrol] using hc⟩

/-- A PATROL context makes the patrol slot exist. -/
theorem Pool.patrolSlot_isSome {p : Pool} {j d} (h : p.context j = some d) (hr : d.role = .patrol) : ∃ i, p.patrolSlot = some i := by
  cases hp : p.patrolSlot with
  | some i => exact ⟨i, rfl⟩
  | none =>
    unfold Pool.patrolSlot at hp
    rw [List.findIdx?_eq_none_iff] at hp
    unfold Pool.context at h
    have : some d ∈ p.slots := by
      unfold List.getD at h
      cases hx : p.slots[j]? with
      | none => rw [hx] at h; cases h
      | some y => rw [hx] at h; dsimp at h; subst h; exact List.mem_of_getElem? hx
    have := hp _ this
    simp [isPatrol, hr] at this

/-- The first context on a segment is its holder. -/
theorem Pool.holder_eq {p : Pool} {g i c} (hc : p.context i = some c) (hg : c.seg = g)
   (hu : ∀ j d, j < i → p.context j = some d → d.seg ≠ g) : p.holder g = some i := by
  unfold Pool.holder
  rw [List.findIdx?_eq_some_iff_getElem]
  unfold Pool.context at hc hu
  have hi : i < p.slots.length := by
    rcases Nat.lt_or_ge i p.slots.length with h | h
    · exact h
    · rw [List.getD, List.getElem?_eq_none h] at hc; cases hc
  refine ⟨hi, ?_, ?_⟩
  · rw [List.getD, List.getElem?_eq_getElem hi] at hc
    have : p.slots[i] = some c := by simpa using hc
    rw [this]; simp [holdsSegment, hg]
  · intro j hj
    cases hx : p.slots[j] with
    | none => simp [holdsSegment]
    | some d =>
      have := hu j d hj (by rw [List.getD, List.getElem?_eq_getElem (by omega), hx]; rfl)
      simpa [holdsSegment] using this

/-- The holder of a segment is a context on it. -/
theorem Pool.holder_some {p : Pool} {g i} (h : p.holder g = some i) : ∃ c, p.context i = some c ∧ c.seg = g := by
  unfold Pool.holder at h
  rw [List.findIdx?_eq_some_iff_getElem] at h
  obtain ⟨hi, hc, _⟩ := h
  cases hx : p.slots[i] with
  | none => rw [hx] at hc; cases hc
  | some c =>
    rw [hx] at hc
    refine ⟨c, by unfold Pool.context; rw [List.getD, List.getElem?_eq_getElem hi, hx]; rfl, by simpa [holdsSegment] using hc⟩

/-- A judgment takes the first candidate (R121). -/
theorem State.judge_eq {s : State} (hf : s.engineFree = true) : s.judge = match s.candidate with
      | .fill g => s.startFill g
      | .resumeFill i => s.resume i
      | .resumePatrol i => s.resume i
      | .freePatrol i => State.judgeWith 1 (s.freePatrol i)
      | .startPatrol g => s.startPatrol g
      | .nothing => s := by
  exact if_pos hf

end Sys2Proof.Machine
end

