-- ==== Sys2Proof/Laws/Requests.lean ====
section
/-! SUPPORT. What a request's own command does where the channel waits for it, and elsewhere. -/

namespace Sys2Proof.Machine

/-- Where the channel waits for a request, its command takes it, with the channel done (R172, R174). -/
theorem State.request_of_awaits {s : State} {code tag : Byte} (h : s.awaits code tag) {n : Nat}
    (hn : parameterLength code = some n) (f : State → State) :
    s.request code tag n f = f (s.setChannel .done) := by
  unfold State.request
  rcases h with h | ⟨h, hb, ha⟩
  · rw [h]; simp
  · rw [h]; simp [State.judgeRequest, hb, hn, ha]

/-- A request that the channel takes with the right length does one of four things: nothing, an answer
with no data, its own effect, or the discarding of the rest of its bytes (R172, R174). -/
theorem State.request_cases (s : State) (code tag : Byte) (n : Nat) (f : State → State) :
    s.request code tag n f = s ∨ s.request code tag n f = s.setChannel .done ∨
      (∃ st, s.request code tag n f = (s.setChannel .done).reply tag code st []) ∨
      s.request code tag n f = f (s.setChannel .done) := by
  unfold State.request
  split
  · split
    · exact .inr (.inl rfl)
    · exact .inr (.inr (.inl ⟨_, rfl⟩))
    · exact .inr (.inr (.inr rfl))
  · split
    · exact .inr (.inr (.inr rfl))
    · exact .inl rfl
  all_goals exact .inl rfl

/-- With no escape transaction open a request's command changes nothing. -/
theorem State.request_of_none {s : State} (h : s.channel = none) (code tag : Byte) (n : Nat)
    (f : State → State) : s.request code tag n f = s := by
  unfold State.request; rw [h]

end Sys2Proof.Machine
end

