-- ==== Sys2Proof/Laws/Upstream.lean ====
section
/-! SUPPORT. What a byte of a transaction, an assertion and the lanes do, case by case. -/

namespace Sys2Proof.Machine

/-- Counting a byte changes the open transaction alone (R9, R11, R12). -/
theorem State.countByte_eq (s : State) (t : Transaction) : s.countByte t = { s with
    transaction := some { t with
      stage := .data
      current := if t.addressLength = 0 then t.current
                 else nextAddress t.addressLength (s.portSize t.port) t.current } } := rfl

/-- A counted byte of a command without an address leaves the current address. -/
theorem State.countByte_zero {t : Transaction} (h : t.addressLength = 0) (s : State) :
    s.countByte t = s.setTransaction { t with stage := .data } := by
  unfold State.countByte; rw [if_pos h]

/-- A data byte of a blocked or dropped transaction is FFh and is counted (R13, R19). -/
theorem execReadDataByte_high {s : State} {t : Transaction} (h : s.transaction = some t)
    (hs : t.stage.carriesData = true) (hd : t.disposition = .block ∨ t.disposition = .drop) (b : Byte) :
    execReadDataByte b s = .next ((s.deliver 0xFF).countByte t) := by
  unfold execReadDataByte; rw [h]; dsimp only; rw [if_pos hs]
  rcases hd with hd | hd <;> rw [hd]

/-- A data byte of a forwarded transaction that is no READ with an address is relayed and counted. -/
theorem execReadDataByte_relayed {s : State} {t : Transaction} (h : s.transaction = some t)
    (hs : t.stage.carriesData = true) (hd : t.disposition = .forward) (hr : t.addressedRead = false)
    (b : Byte) : execReadDataByte b s = .next ((s.deliver b).countByte (t.relay b)) := by
  unfold execReadDataByte; rw [h]; dsimp only; rw [if_pos hs, hd]; dsimp only; rw [hr]; rfl

/-- A data byte of a forwarded READ with an address goes on as R20 states. -/
theorem execReadDataByte_read {s : State} {t : Transaction} (h : s.transaction = some t)
    (hs : t.stage.carriesData = true) (hd : t.disposition = .forward) (hr : t.addressedRead = true)
    (b : Byte) : execReadDataByte b s = .next (s.deliverRead (t.relay b) b) := by
  unfold execReadDataByte; rw [h]; dsimp only; rw [if_pos hs, hd]; dsimp only; rw [hr]; rfl

/-- What runs downstream for an open transaction (R18). -/
theorem State.relay_of_forward {s : State} {t : Transaction} (h : s.transaction = some t)
    (hd : t.disposition = .forward) : s.relay = some
      { port := t.port, bytes := t.relayed.reverse, addressLanes := t.entry.map (·.addressLanes)
        dataLanes := (t.entry.map (·.dataLanes)).getD .one
        dummy := (t.entry.map (·.dummy)).getD 0 } := by
  unfold State.relay; rw [h]; exact if_pos hd

/-- Nothing runs downstream for a transaction that is not forwarded (R13, R14, R19). -/
theorem State.relay_of_not_forward {s : State} {t : Transaction} (h : s.transaction = some t)
    (hd : t.disposition ≠ .forward) : s.relay = none := by
  unfold State.relay; rw [h]; exact if_neg hd

/-- Where an assertion opens a transaction (R1, R187). -/
theorem State.opensTransaction_iff (s : State) (p : Port) : s.opensTransaction p = true ↔
    s.power.state = .doze ∨ (s.port (otherPort p)).upstream = false := by
  unfold State.opensTransaction; simp

/-- The power state by which a request is judged, with a transaction open (R3, R175, R187). -/
theorem State.requestPower_of_some {s : State} {t : Transaction} (h : s.transaction = some t) :
    s.requestPower = if t.waking then .waking else s.power.state := by
  unfold State.requestPower; rw [h]

end Sys2Proof.Machine
end

