-- ==== Sys2Proof/Tests/Slice0.lean ====
section
/-! SUPPORT. Tests of the model, and for every statement with hypotheses a state and operands that meet
them. A test's expected result comes from spec/, from FIPS 180-4, from RFC 6979 (A.2.5) or from a hand
calculation. -/

namespace Sys2Proof.Machine

set_option Elab.async false

/-! ## Operands that no event of the part has -/

theorem test_wf_header_length : (Instr.headerReadEnd (List.replicate 127 0)).wellFormed = false := by
  decide +kernel
theorem test_wf_body_short : (Instr.bodyReadEnd (List.replicate 127 0)).wellFormed = false := by
  decide +kernel
/-- The check of a body read reads its length alone. -/
theorem wellFormed_bodyReadEnd_replicate (n : Nat) : (Instr.bodyReadEnd (List.replicate n 0)).wellFormed =
    (decide (64 + signatureLength ≤ n) && decide (n ≤ 130944)) := by
  unfold Instr.wellFormed; dsimp only; rw [List.length_replicate]
theorem test_wf_body_long : (Instr.bodyReadEnd (List.replicate 130945 0)).wellFormed = false := by
  rw [wellFormed_bodyReadEnd_replicate]; decide
theorem test_wf_address : (Instr.addressComplete [0, 0]).wellFormed = false := by decide
theorem test_wf_unknown_request : (Instr.unknownRequest 0 0x0C).wellFormed = false := by decide
theorem test_wf_wake_short : (Instr.wakeCheck (List.replicate 127 0)).wellFormed = false := by
  decide +kernel
/-- The check of a wake read reads its length alone. -/
theorem wellFormed_wakeCheck_replicate (n : Nat) : (Instr.wakeCheck (List.replicate n 0)).wellFormed =
    (decide (headerLength ≤ n) && decide (n ≤ 131008)) := by
  unfold Instr.wellFormed; dsimp only; rw [List.length_replicate]
theorem test_wf_wake_long : (Instr.wakeCheck (List.replicate 131009 0)).wellFormed = false := by
  rw [wellFormed_wakeCheck_replicate]; decide
theorem test_wf_length_byte_zero : (Instr.requestLengthByte 0 0 0).wellFormed = false := by decide
theorem test_wf_length_byte_high : (Instr.requestLengthByte 0x0D 0 0).wellFormed = false := by decide
theorem test_ill_formed_stops : exec (.addressComplete []) State.reset = .fault .illFormed := rfl

/-! ## The published functions -/

/-- FIPS 180-4's example message "abc". -/
theorem test_sha256_abc : sha256 [0x61, 0x62, 0x63] =
    0xba7816bf8f01cfea414140de5dae2223b00361a396177a9cb410ff61f20015ad := by decide +kernel

/-- 256 bytes 61h: a message of more than one block. -/
theorem test_sha256_blocks : sha256 (List.replicate 256 0x61) =
    0x02d7160d77e18c6447be80c2e355c7ed4388545271702c50253b0914c65ce5fe := by decide +kernel

/-- The check value of CRC-32 over the digits 1 to 9. -/
theorem test_crc32_digits :
    crc32 [0x31, 0x32, 0x33, 0x34, 0x35, 0x36, 0x37, 0x38, 0x39] = 0xCBF43926 := by decide +kernel

/-- RFC 6979, A.2.5: P-256 with SHA-256, message "sample". -/
theorem test_ecdsa_sample : P256.verify
    0x60FED4BA255A9D31C961EB74C6356D68C049B8923B61FA6CE669622E60F29FB6
    0x7903FE1008B8BC99A41AE9E95628BC64F2F1B20C2D7E9F5177A3C294D4462299
    (sha256 [0x73, 0x61, 0x6D, 0x70, 0x6C, 0x65]).toNat
    0xEFD48B2AACB6A8FD1140DD9CD45E81D69D2C877B56AAF991C34D0EA84EAF3716
    0xF7CB1C942D657C41D436C7A1B6E29F65F3E900DBB9AFF4064DC4AB2F843ACDA8 = true := by decide +kernel

/-- The same signature with another digest is refused. -/
theorem test_ecdsa_other_digest : P256.verify
    0x60FED4BA255A9D31C961EB74C6356D68C049B8923B61FA6CE669622E60F29FB6
    0x7903FE1008B8BC99A41AE9E95628BC64F2F1B20C2D7E9F5177A3C294D4462299 1
    0xEFD48B2AACB6A8FD1140DD9CD45E81D69D2C877B56AAF991C34D0EA84EAF3716
    0xF7CB1C942D657C41D436C7A1B6E29F65F3E900DBB9AFF4064DC4AB2F843ACDA8 = false := by decide +kernel

/-! ## A manifest, written out from 12.1 -/

/-- A header: slot 0, sequence 7, class 0 at version 1, port 0 of 1 MiB, one region, one class entry, one
digest, print mask `mask`, scan mask 1. -/
def sampleHeader (mask : Nat) : List Byte :=
  leBytes 4 0x56474D31 ++ leBytes 1 1 ++ leBytes 1 0 ++ leBytes 1 0 ++ leBytes 1 0 ++ leBytes 4 7 ++
    [1, 0, 0, 0, 0, 0, 0, 0] ++ leBytes 1 1 ++ leBytes 1 0 ++ leBytes 1 1 ++ leBytes 1 1 ++ leBytes 2 1 ++
    leBytes 2 mask ++ leBytes 2 1 ++ leBytes 2 0 ++ leBytes 4 264 ++ List.replicate 92 0

/-- The rest of its body: region 16..16 of port 0, ALLOW_MARK, BLANK, patrolled; READ 03h; a deadline of
5 ms; a digest of zeros. -/
def sampleBody : List Byte :=
  leBytes 1 0 ++ leBytes 1 0 ++ leBytes 2 16 ++ leBytes 2 1 ++ [2, 1, 1] ++ List.replicate 23 0 ++
    [0x03, 0, 3, 1, 1, 0, 0, 0] ++ leBytes 2 5 ++ List.replicate 62 0 ++ List.replicate 32 0

/-- 32 bytes, most significant first. -/
def be32 (n : Nat) : List Byte := (leBytes 32 n).reverse

/-- The public key of the signatures below. -/
def sampleKey : List Byte :=
  be32 0x98825ea6ebfdc8074bfcb871d7a9caeba712f65c0e22fe4065f31d11f49b70ee ++
    be32 0x8d61c0823b7c41148250d1c4b64b30fd6c778933ebc316bdaf35c78f96fb002a

/-- The body read of the manifest with print mask 1, its signature computed outside Lean. -/
def sampleRead : List Byte := sampleBody ++
  be32 0xf9ebedceb69ab0a5223a04f7055404405e66b073e2929fb798a4a9a96b26ecea ++
  be32 0xdb67fafe1279e47887b90ae06ff11599065ec2993cc7d895a58c0dee9171245b

/-- The body read of the manifest with an empty print mask, signed too. -/
def sampleReadNoMask : List Byte := sampleBody ++
  be32 0xf105819a42c741689ff72898e9402bb897f40d684f882bc8cc8dbc4c152fcae5 ++
  be32 0xa63120e208b7beb8e4d4a6281ef4554a037f12b7e059a9ded68d395094ec1ce4

/-- Fuses with the key in slot 0, the fallback anchor at unit 1, a recovery window of segment 8. -/
def sampleFuses : Fuses := { Fuses.unprovisioned with
  slots := ⟨true, sampleKey, 0xd7b7e247⟩ :: List.replicate 3 KeySlot.absent
  fallbackBase := 1, recoveryBase := 8, recoveryCount := 1 }

/-- The end of reset, with a read in progress and a step. -/
def holding (step : AuthStep) (read : FetchRead) : State := { State.reset with
  fuses := sampleFuses
  lines := { Lines.inReset with rst := false }
  control := { PhaseControl.afterReset with step := step }
  engine := { Engine.afterReset with read := some read } }

def sampleCandidate (mask : Nat) : Candidate := ⟨.primary, sampleHeader mask, 7, none⟩

/-- The body read of the one candidate. -/
def evaluating (mask : Nat) (fuses : Fuses) : State :=
  let s := holding .evaluate (sampleFuses.bodyRead (sampleCandidate mask))
  { s with fuses := fuses, control := { s.control with candidates := [sampleCandidate mask] } }

/-- Class 0's row with two bits blown: its floor lies above the manifest's version 1. -/
def raisedFuses : Fuses := { sampleFuses with rows := 3 :: List.replicate 7 0 }

def sampleCopy (mask : Nat) (read : List Byte) : CandidateCopy := readCopy (sampleHeader mask) read

/-- A next state with a property. -/
def gives (o : Host.Outcome State Fault Refusal) (p : State → Bool) : Bool :=
  match o with
  | .next t => p t
  | _ => false

theorem test_key_check : sampleFuses.keyCheck = .good := by decide +kernel
theorem test_unprovisioned_recovers : gives (exec .resetEnd State.reset)
    (fun t => decide (t.control.phase = .recovery ∧ t.lines.crst = false ∧ t.faults.length = 1)) = true := by
  decide +kernel
theorem test_acceptance : gives (exec (.bodyReadEnd sampleRead) (evaluating 1 sampleFuses))
    (fun t => decide (t.control.phase = .run ∧ t.segments.map (·.seg) = [16] ∧ t.engine.job = .fill ∧
      t.gates.deadline = .armed)) = true := by decide +kernel

theorem witness_KeyStoreCheckDecides :
    (State.reset.lines.rst = true ∧ State.reset.control.phase = .hold ∧ State.reset.advance = []) ∧
    (sampleFuses.slot 0).provisioned = true ∧
    crc32 (sampleFuses.slot 0).key = (sampleFuses.slot 0).check ∧
    (∀ i, i < 4 → (Fuses.unprovisioned.slot i).provisioned = false) ∧
    crc32 (KeySlot.absent.key) ≠ 0 := by decide +kernel
theorem witness_StepRunsTheFrontCommand :
    ({ State.reset with pending := [.fetch] } : State).pending = .fetch :: [] ∧
      State.reset.pending = [] := by decide
theorem witness_WellFormedCommandsComplete :
    Instr.fetch.wellFormed = true ∧ (Instr.addressComplete []).wellFormed = false := by decide
theorem witness_ResetKeepsTheFusesAlone :
    State.reset.advance = [] ∧
      ({ State.reset with advance := [.row 0] } : State).advance = .row 0 :: [] := by decide
theorem witness_IdentityReadEndHoldsTheIdentity :
    (holding .identities (identityRead .p0 .identity)).engine.read = some (identityRead .p0 .identity) ∧
      (identityRead .p0 .identity).kind = .identity ∧ (identityRead .p1 .identity).port = .p1 := by decide
theorem witness_PrimaryHeaderIsJudgedByItsMagic :
    let s := holding .headers (sampleFuses.headerRead .primary)
    (sampleHeader 1).length = 128 ∧ s.engine.read = some (sampleFuses.headerRead .primary) ∧
      (sampleFuses.headerRead .primary).kind = .header .primary ∧
      (sampleFuses.headerRead .primary).port = .p0 ∧ s.control.phase = .hold ∧
      field (sampleHeader 1) 0 4 = 0x56474D31 ∧ field (List.replicate 128 0) 0 4 ≠ 0x56474D31 := by
  decide +kernel
theorem witness_NoManifestLeadsToRecovery :
    let s := holding .headers (sampleFuses.headerRead .fallback)
    let bad : Candidate := ⟨.primary, List.replicate 128 0, 9, none⟩
    let t : State := { s with
      fuses := { sampleFuses with revoked := 1 }, control := { s.control with candidates := [bad] } }
    (List.replicate 128 (0xFF : Byte)).length = 128 ∧
      field (List.replicate 128 0xFF) 0 4 ≠ 0x56474D31 ∧
      s.engine.read = some (sampleFuses.headerRead .fallback) ∧
      (sampleFuses.headerRead .fallback).kind = .header .fallback ∧ s.control.phase = .hold ∧
      s.control.candidates = [] ∧
      (s.control.candidates.map (fun c => headerReject s.fuses c.header) = [].map some) ∧
      field (sampleHeader 1) 0 4 = 0x56474D31 ∧ t.control.candidates.length ≤ 1 ∧
      ¬ bad.sequence < field (sampleHeader 1) 8 4 ∧
      [bad, ⟨.fallback, sampleHeader 1, 7, none⟩].map (fun c => headerReject t.fuses c.header) =
        [RejectReason.badFormat, .keyRevoked].map some := by decide +kernel
theorem witness_HigherSequenceIsReadFirst :
    let s := holding .headers (sampleFuses.headerRead .fallback)
    let bad : Candidate := ⟨.primary, List.replicate 128 0, 9, none⟩
    let q : Candidate := ⟨.fallback, sampleHeader 1, 7, none⟩
    let t : State := { s with control := { s.control with candidates := [sampleCandidate 1] } }
    let u : State := { s with control := { s.control with candidates := [bad] } }
    (sampleHeader 1).length = 128 ∧ field (sampleHeader 1) 0 4 = 0x56474D31 ∧
      field (sampleHeader 1) 8 4 = 7 ∧
      t.engine.read = some (sampleFuses.headerRead .fallback) ∧
      (sampleFuses.headerRead .fallback).port = .p0 ∧ t.control.phase = .hold ∧
      t.control.candidates = [] ++ sampleCandidate 1 :: [] ∧ ¬ (sampleCandidate 1).sequence < q.sequence ∧
      headerReject t.fuses (sampleCandidate 1).header = none ∧
      u.control.candidates = [bad] ∧ ¬ bad.sequence < q.sequence ∧ [bad, q] = [bad] ++ q :: [] ∧
      [bad].map (fun c => headerReject u.fuses c.header) = [RejectReason.badFormat].map some ∧
      headerReject u.fuses q.header = none := by decide +kernel
/-- The region of the sample manifest. -/
def sampleRegion1 : Region :=
  { port := .p0, imageClass := 0, first := 16, count := 1, write := .allowMark, read := .blank,
    patrol := true, touched := false }
theorem witness_ManifestIsReadAndCheckedByItsBytes :
    headerReject sampleFuses (List.replicate 128 0) = some .badFormat ∧
      headerReject Fuses.unprovisioned (sampleHeader 1) = some .keyAbsent ∧
      headerReject { sampleFuses with revoked := 1 } (sampleHeader 1) = some .keyRevoked ∧
      headerReject sampleFuses (sampleHeader 1) = none ∧
      structureGood sampleFuses (sampleHeader 1) (sampleCopy 1 sampleRead) = true ∧
      [(0 : Digest)].length = ([sampleRegion1].map (·.count)).sum ∧ [sampleRegion1][0]? = some sampleRegion1 ∧
      0 < sampleRegion1.count := by decide +kernel
theorem witness_AcceptanceCommitsTheManifest :
    let s := evaluating 1 sampleFuses
    s.engine.read = some (sampleFuses.bodyRead (sampleCandidate 1)) ∧
      s.control.candidates = [sampleCandidate 1] ∧ 128 ≤ sampleRead.length ∧
      sampleRead.length + 64 = headerBodyLength (sampleHeader 1) ∧ sampleRead.length ≤ 130944 ∧
      candidateSigned s.fuses (sampleHeader 1) sampleRead (sampleCopy 1 sampleRead) = true ∧
      (∀ x ∈ s.fuses.differences (headerVersions (sampleHeader 1)), 0 ≤ x) ∧
      structureGood s.fuses (sampleHeader 1) (sampleCopy 1 sampleRead) = true ∧
      s.gates.print.state = .off ∧ s.gates.scan.state = .off := by decide +kernel
theorem witness_LastRejectionEndsInRecovery :
    let c := sampleCopy 1 sampleReadNoMask
    let s := evaluating 1 sampleFuses
    let bad : Candidate := ⟨.fallback, List.replicate 128 0, 3, none⟩
    let q : Candidate := ⟨.fallback, sampleHeader 1, 7, none⟩
    s.control.candidates = [sampleCandidate 1] ∧ s.control.phase = .hold ∧
      s.engine.read = some (sampleFuses.bodyRead (sampleCandidate 1)) ∧
      (sampleFuses.bodyRead (sampleCandidate 1)).kind = .body ∧
      (sampleFuses.bodyRead (sampleCandidate 1)).port = .p0 ∧
      sampleReadNoMask.length + 64 = headerBodyLength (sampleHeader 1) ∧
      128 ≤ sampleReadNoMask.length ∧ sampleReadNoMask.length ≤ 130944 ∧
      candidateSigned sampleFuses (sampleHeader 1) sampleReadNoMask c = false ∧
      candidateSigned raisedFuses (sampleHeader 1) sampleRead (sampleCopy 1 sampleRead) = true ∧
      (raisedFuses.differences (headerVersions (sampleHeader 1))).getD 0 0 < 0 ∧
      candidateSigned sampleFuses (sampleHeader 0) sampleReadNoMask (sampleCopy 0 sampleReadNoMask) = true ∧
      (∀ y ∈ sampleFuses.differences (headerVersions (sampleHeader 0)), 0 ≤ y) ∧
      structureGood sampleFuses (sampleHeader 0) (sampleCopy 0 sampleReadNoMask) = false ∧
      [q] = [] ++ q :: [] ∧ headerReject s.fuses q.header = none ∧
      [bad].map (fun y => headerReject s.fuses y.header) = [RejectReason.badFormat].map some := by
  decide +kernel
/-! ## States in RUN -/

def sampleRegion : Region :=
  { port := .p0, imageClass := 0, first := 16, count := 2, write := .allowMark, read := .blank,
    patrol := true, touched := false }

def sampleSegment (g : Nat) (st : SegState) : SegEntry :=
  { seg := g, digest := 0, state := st, region := 0, parity := Config.segParity 0 0 }

def sampleContext : VerificationContext :=
  { identity0 := ⟨1, 2, 3⟩, identity1 := ⟨0xFF, 0xFF, 0xFF⟩, anchor := .primary, sequence := 0, slot := 0,
    digest := sha256 (leBytes 32 0 ++ leBytes 4 128 ++ List.replicate 92 0) }

/-- RUN and ACTIVE, segments 16 and 17 of one region in these states, both masks holding it. -/
def running (a b : SegState) : State := { State.reset with
  fuses := sampleFuses
  lines := { Lines.inReset with rst := false, crst := false }
  control := { PhaseControl.afterReset with
    phase := .run, step := .done, context := some sampleContext
    manifest := some { versions := List.replicate 8 0, revoke := 2, size0 := 1, size1 := 0 } }
  regions := [sampleRegion], segments := [sampleSegment 16 a, sampleSegment 17 b]
  classTable := [builtInEntry 0x03 .read .three 0 .kib4, builtInEntry 0x02 .program .three 0 .kib4,
    builtInEntry 0xC7 .erase .zero 0 .whole, builtInEntry 0x60 .block .zero 0 .kib4]
  engine := { Engine.afterReset with job := .idle }
  gates := { GateUnit.afterReset with print := ⟨.off, false, 1⟩, scan := ⟨.off, false, 1⟩ } }

/-- RECOVERY and ACTIVE. -/
def recovering : State := { State.reset with
  lines := { Lines.inReset with rst := false, crst := false }
  control := { PhaseControl.afterReset with phase := .recovery, step := .done }
  engine := { Engine.afterReset with job := .idle } }

/-- RUN with both segments UNSEEN. -/
def idleRun : State := running .unseen .unseen

/-- The same with power in a state. -/
def inPower (s : State) (p : PowerState) : State := { s with power := { s.power with state := p } }

/-- A decode record just opened on port 0. -/
def freshRecord : Transaction :=
  { port := .p0, waking := false, phase := .run, stage := .command, command := none, entry := none,
    addressLength := 0, disposition := .pending, start := none, current := 0, received := [], relayed := []
    channel := .awaiting }

/-- The record of a listed command on port 0 at a stage. -/
def listedRecord (e : ClassEntry) (n : Nat) (st : Stage) (d : Disposition) : Transaction :=
  { freshRecord with
    command := some e.command, entry := some e, addressLength := n, stage := st, disposition := d }

/-- Port 0's chip select asserted with this record open. -/
def opened (s : State) (tr : Transaction) : State := { s with
  transaction := some tr
  port0 := { s.port0 with upstream := true, owner := .passThrough, available := false } }

def readEntry : ClassEntry := builtInEntry 0x03 .read .three 0 .kib4
def programEntry : ClassEntry := builtInEntry 0x02 .program .three 0 .kib4
def eraseEntry : ClassEntry := builtInEntry 0xC7 .erase .zero 0 .whole

/-- An escape transaction at a place of the channel. -/
def escaped (s : State) (c : Channel) : State := opened s { freshRecord with
  command := some 0x4E, stage := .data, disposition := .request, channel := c }

/-- A live context. -/
def contextOn (g fill : Nat) (role : Role) (source : Source) : Context :=
  { seg := g, role := role, fill := fill, lastAdvance := 0, source := source, digest := Sha.fresh }

/-- These contexts in the first slots, the rest free. -/
def withContexts (s : State) (l : List Context) : State := { s with
  pool := { s.pool with slots := l.map some ++ List.replicate (6 - l.length) none } }

/-- The engine's read of a context in slot 0. -/
def reading (s : State) (kind : ReadKind) (g fill : Nat) : State := { s with
  engine := { s.engine with
    job := kind.job
    read := some (s.fuses.dataRead (segmentPort g) kind (segmentBase g + fill) (segmentBytes - fill)) } }

/-- A proof of a property of every context of a pool, from one over its slots. -/
theorem forall_contexts {p : Pool} {P : Nat → Context → Prop}
    (h : ∀ i, i < p.slots.length → ∀ c ∈ p.context i, P i c) : ∀ i c, p.context i = some c → P i c := by
  intro i c hc
  refine h i ?_ c hc
  rcases Nat.lt_or_ge i p.slots.length with hi | hi
  · exact hi
  · unfold Pool.context at hc
    rw [List.getD, List.getElem?_eq_none hi] at hc
    cases hc

/-! ## One-step tests -/

/-- R4: the escape byte is a request, and R13: a BLOCK command pushes its record. -/
theorem test_block_command : gives (exec (.commandByte 0x60) (opened idleRun freshRecord))
    (fun t => decide (t.faults.map (·.kind) = [.blocked] ∧
      t.transaction.map (·.disposition) = some .block)) = true := by decide +kernel
/-- R33, R16: segment 8 is the recovery window; the address 8 · 32768 is blocked. -/
theorem test_window_write_denied :
    gives (exec (.addressComplete [0x04, 0x00, 0x00])
      (opened idleRun (listedRecord programEntry 3 .address .pending)))
    (fun t => decide (t.faults.map (fun r => (r.kind, r.segment, r.address)) =
      [(.writeDenied, some 8, some 0x40000)])) = true := by decide +kernel
/-- R87: a PROGRAM in ALLOW_MARK segment 17 makes it DIRTY and 16 not. -/
theorem test_program_marks : gives (exec (.addressComplete [0x08, 0xFF, 0xFF])
      (opened (running .verified .verified) (listedRecord programEntry 3 .address .pending)))
    (fun t => decide (t.segState 16 = some .verified ∧ t.segState 17 = some .dirty)) = true := by
  decide +kernel
/-- R18: a PROGRAM forwarded at its judgment replays its command byte and the address bytes, in order. -/
theorem test_program_replays : gives (exec (.addressComplete [0x08, 0xFF, 0xFE])
      (opened idleRun { listedRecord programEntry 3 .address .pending with received := [0x02] }))
    (fun t => decide (t.relay.map (·.bytes) = some [0x02, 0x08, 0xFF, 0xFE])) = true := by
  decide +kernel
/-- R102: a READ byte at offset 0 of UNSEEN segment 16 opens a proof with fill 1. -/
theorem test_read_opens_proof : gives (exec (.readDataByte 0xAA)
      (opened idleRun { listedRecord readEntry 3 .data .forward with current := 16 * 32768 }))
    (fun t => decide (t.segState 16 = some .hashing ∧ (t.pool.context 0).map (·.fill) = some 1 ∧
      t.delivered = some 0xAA ∧ t.regions.map (·.touched) = [true])) = true := by decide +kernel
/-- R90: a byte of a FAILED segment in a BLANK region is FFh. -/
theorem test_blanked_byte : gives (exec (.readDataByte 0xAA)
      (opened (running .failed .unseen) { listedRecord readEntry 3 .data .forward with current := 16 * 32768 }))
    (fun t => decide (t.delivered = some 0xFF)) = true := by decide +kernel
/-- R140: the print gate rises when its last segment is proven; R142: with interval 0 it is ON at once. -/
theorem test_gate_rises : (running .verified .verified).settleGates.gates.print.state = .on ∧
    (running .verified .verified).settleGates.lines.earm = true ∧
    (running .verified .dirty).settleGates.gates.print.state = .off := by decide +kernel
/-- R177: 34 bytes; R163: 16 bytes. -/
theorem test_status_length : idleRun.statusData.length = 34 := by decide +kernel
/-- R180, R47: holdoff 1024 becomes 1023, patrol 1 becomes 10. -/
theorem test_settings_clamp : gives (exec (.settings 9 0x00 0x04 0x01 0x00 0x02 0xFF 0x00 0x07)
      (escaped idleRun .awaiting))
    (fun t => decide (t.settings.holdoff = 1023 ∧ t.settings.patrol = 10 ∧ t.settings.alertMode = .pulse ∧
      t.settings.printSet = 15 ∧ t.buffer.data = [0xFF, 3, 10, 0, 1, 0x0F, 0, 7])) = true := by
  decide +kernel
/-- R185, R186: with both gates OFF a DOZE reaches DOZE in its own event. -/
theorem test_doze : gives (exec (.doze 1) (escaped idleRun .awaiting))
    (fun t => decide (t.power.state = .doze ∧ t.power.fpwr = false ∧ t.transaction = none)) = true := by
  decide +kernel
/-- R36: class 0 at difference 2 and the flag of slot 1. -/
theorem test_advance_plan : State.advancePlan { idleRun with
    control := { idleRun.control with differences := [2, 0, 0, 0, 0, 0, 0, 0] } } =
    [.row 0, .row 0, .flag 1] := by decide +kernel
/-- R34: a fused read with three address bytes sends the address modulo 16 MiB, most significant first. -/
theorem test_read_address_bytes :
    (AddrMode.three.sentBytes 0x1018000, AddrMode.four.sentBytes 0x1018000) =
      ([0x01, 0x80, 0x00], [0x01, 0x01, 0x80, 0x00]) := by decide
/-- R121: at a free engine the sweep starts segment 16 when the port's chip select is deasserted. -/
theorem test_deassert_starts_fill : gives (exec (.upstreamCsDeassert .p0) (opened idleRun freshRecord))
    (fun t => decide (t.engine.job = .fill ∧ t.segState 16 = some .hashing ∧
      t.engine.read.map (·.start) = some 0x80000)) = true := by decide +kernel

/-- R13, R19, R9, R11: a byte of a dropped 0Bh READ is FFh, its dummy clocks are over and it is counted. -/
theorem test_dropped_byte_counts : gives (exec (.readDataByte 0xAA)
      (opened idleRun (listedRecord (builtInEntry 0x0B .read .three 8 .kib4) 3 .dummy .drop)))
    (fun t => decide (t.delivered = some 0xFF ∧ t.transaction.map (·.stage) = some .data ∧
      t.transaction.map (·.current) = some 1)) = true := by decide +kernel
/-- R11, R12: a byte sent in a forwarded PROGRAM moves its current address, and wraps at the port's end. -/
theorem test_program_byte_counts : gives (exec (.readDataByte 0xAA)
      (opened idleRun { listedRecord programEntry 3 .data .forward with current := 0xFFFFF }))
    (fun t => decide (t.transaction.map (·.current) = some 0)) = true := by decide +kernel
/-- R187, R1: an assertion in DOZE opens a WAKING transaction, the other chip select held or not. -/
theorem test_doze_assert_beside_held : gives (exec (.upstreamCsAssert .p0)
      { inPower idleRun .doze with port1 := { idleRun.port1 with upstream := true } })
    (fun t => decide (t.power.state = .waking ∧ t.transaction.map (·.waking) = some true)) = true := by
  decide +kernel
/-- R3, R187, R175: a request in a transaction opened in WAKING is judged by the WAKING rules when ACTIVE. -/
theorem test_waking_request_when_active : gives (exec (.requestLengthByte 9 1 2)
      (opened idleRun { freshRecord with
        waking := true, command := some 0x4E, stage := .data, disposition := .request }))
    (fun t => decide (t.buffer.status = some .notAllowed)) = true := by decide +kernel

/-! ## Witnesses: the upstream port -/

theorem witness_AssertOpensUnlessTheOtherIsAsserted :
    let s : State := { idleRun with port1 := { idleRun.port1 with upstream := true } }
    idleRun.control.phase = .run ∧ recovering.control.phase = .recovery ∧
      (idleRun.port .p1).upstream = false ∧ idleRun.power.state ≠ .doze ∧ idleRun.engine.read = none ∧
      (s.port .p0).upstream = false ∧ (s.port (otherPort .p0)).upstream = true := by
  decide +kernel
theorem witness_AssertOrWakeEdgeEndsDoze :
    let s := inPower idleRun .doze
    let u : State := { s with port1 := { s.port1 with upstream := true } }
    s.control.phase = .run ∧ s.power.state = .doze ∧ s.engine.read = none ∧
      (s.port .p0).upstream = false ∧ (s.port .p0).owner = .nobody ∧
      (u.port .p0).upstream = false ∧ (u.port .p1).upstream = true ∧ u.power.state = .doze ∧
      idleRun.power.state ≠ .doze ∧ State.reset.control.phase = .hold := by decide +kernel
theorem witness_AssertAbortsTheReadOnItsPort :
    let s := reading (withContexts (running .hashing .unseen) [contextOn 16 5 .verify .fetch]) (.fill 0) 16 5
    let u : State := { s with port1 := { s.port1 with upstream := true } }
    s.control.phase = .run ∧ s.power.state = .active ∧ (s.port .p0).upstream = false ∧
      (s.port .p1).upstream = false ∧ s.engine.read.map (·.port) = some .p0 ∧
      s.engine.read.map (·.kind) = some (.fill 0) ∧
      s.pool.context 0 = some (contextOn 16 5 .verify .fetch) ∧
      (u.port .p0).upstream = false ∧ (u.port (otherPort .p0)).upstream = true := by decide +kernel
theorem witness_HeldTrafficIsIgnored :
    State.reset.control.phase = .hold ∧ State.reset.enterHalted.control.phase = .halted ∧
      State.reset.transaction = none ∧ State.reset.enterHalted.transaction = none ∧
      [(0 : Byte), 0, 0].length = 3 ∧ [(0 : Byte), 0, 0, 0].length = 4 := by decide +kernel
theorem witness_EscapeByteOpensARequest :
    (opened recovering freshRecord).transaction = some freshRecord ∧ freshRecord.stage = .command := by
  decide +kernel
theorem witness_ListedCommandsAreForwarded :
    (opened idleRun freshRecord).transaction = some freshRecord ∧ freshRecord.stage = .command ∧
      freshRecord.waking = false ∧ idleRun.control.phase = .run ∧
      idleRun.classTable.find? (fun x => x.command == 0x03) = some readEntry ∧ readEntry.cls = .read ∧
      builtInTable.find? (fun x => x.command == 0xB7) = some (builtInEntry 0xB7 .mode4 .zero 0 .kib4) := by
  decide +kernel
theorem witness_BlockedCommandsAreRecorded :
    let s := opened idleRun freshRecord
    let u : State := { s with settings := { s.settings with unlisted := .block } }
    s.transaction = some freshRecord ∧ freshRecord.stage = .command ∧ freshRecord.waking = false ∧
      s.lookup 0x60 = some (builtInEntry 0x60 .block .zero 0 .kib4) ∧ s.lookup 0x77 = none ∧
      s.control.phase = .run ∧ u.settings.unlisted = .block ∧ s.settings.unlisted = .pass := by
  decide +kernel
theorem witness_WakingTransactionsAreDropped :
    let tr : Transaction := { freshRecord with waking := true }
    let s := opened (inPower idleRun .waking) tr
    let at' := fun (e : ClassEntry) (n : Nat) (st : Stage) (d : Disposition) =>
      (opened idleRun (listedRecord e n st d)).transaction = some (listedRecord e n st d)
    let fast := builtInEntry 0x0B .read .three 8 .kib4
    let block := builtInEntry 0x60 .block .three 0 .kib4
    s.transaction = some tr ∧ tr.stage = .command ∧ tr.waking = true ∧ s.lookup 0x77 = none ∧
      s.lookup 0x03 = some readEntry ∧ at' readEntry 3 .data .drop ∧ at' fast 3 .dummy .drop ∧
      at' block 0 .data .block ∧ at' block 3 .address .block ∧ at' fast 3 .address .drop := by
  decide +kernel
theorem witness_StartAddressIsReducedToThePort :
    let tr := listedRecord readEntry 3 .address .forward
    (opened idleRun tr).transaction = some tr ∧ tr.stage = .address ∧
      [(0xFF : Byte), 0xFF, 0xFF].length = tr.addressLength ∧ tr.entry = some readEntry ∧
      tr.disposition ≠ .pending := by decide +kernel
theorem witness_AffectedSegmentsAreThoseTheCommandReaches :
    programEntry.cls = .program ∧ eraseEntry.cls = .erase ∧ eraseEntry.extent = .whole ∧
      (builtInEntry 0xD8 .erase .three 0 .kib64).extent.bytes = some 65536 := by decide
theorem witness_WritesAreJudgedWhenTheirAddressIsKnown :
    let tr := listedRecord programEntry 3 .address .pending
    (opened idleRun freshRecord).lookup 0xC7 = some eraseEntry ∧
      (opened idleRun freshRecord).resolveLength .p0 eraseEntry.address = 0 ∧
      (opened idleRun freshRecord).lookup 0x02 = some programEntry ∧
      (opened idleRun freshRecord).resolveLength .p0 programEntry.address ≠ 0 ∧
      (opened idleRun tr).transaction = some tr ∧ tr.stage = .address ∧ tr.disposition = .pending ∧
      tr.entry = some programEntry ∧ tr.command = some 0x02 := by decide +kernel

/-- A PROGRAM whose address is known. -/
def writing (a : Nat) (phase : Phase) : Transaction :=
  { listedRecord programEntry 3 .data .pending with start := some a, current := a, phase := phase }

/-- A PROGRAM reaches the one segment of its address. -/
theorem program_holds (s : State) (a g : Nat) (ph : Phase) :
    (s.affected (writing a ph).port programEntry (writing a ph).start).holds g = true ↔ g = a / 32768 := by
  show (SegmentRun.holds ⟨0 * 1024 + a / 32768, 1⟩ g) = true ↔ _
  simp only [SegmentRun.holds, Bool.and_eq_true, decide_eq_true_eq]
  omega

theorem witness_UnblockedWritesAreForwardedAndMark :
    (∀ g, (idleRun.affected (writing 0x80000 .run).port programEntry (writing 0x80000 .run).start).holds g =
        true → ¬ (idleRun.fuses.inRecoveryWindow g = true ∨ ((writing 0x80000 .run).phase = .run ∧
          ((∃ r, idleRun.regionOf g = some r ∧ (r.write = .deny ∨ r.write = .denyTrip)) ∨
            ∃ v, idleRun.control.context = some v ∧ idleRun.fuses.inAnchor v.anchor g = true)))) ∧
      (writing 0x80000 .run).phase = .run ∧ (writing 0x80000 .recovery).phase ≠ .run := by
  refine ⟨fun g hg => ?_, rfl, by decide⟩
  rw [program_holds] at hg
  have hg : g = 16 := hg
  subst hg
  rintro (h | ⟨-, ⟨r, h, hw⟩ | ⟨v, h, hw⟩⟩)
  · exact absurd h (by decide +kernel)
  · have : r = sampleRegion := by
      have e : idleRun.regionOf 16 = some sampleRegion := by decide +kernel
      rw [e] at h; exact (Option.some.inj h).symm
    subst this; exact absurd hw (by decide)
  · have : v = sampleContext := (Option.some.inj h).symm
    subst this; exact absurd hw (by decide +kernel)
theorem witness_BlockedWritesAreDenied :
    idleRun.control.phase ≠ .halted ∧
      (idleRun.affected (writing 0x40000 .run).port programEntry (writing 0x40000 .run).start).holds 8 = true ∧
      idleRun.fuses.inRecoveryWindow 8 = true ∧
      ∀ h, h < 8 → (idleRun.affected (writing 0x40000 .run).port programEntry
        (writing 0x40000 .run).start).holds h ≠ true := by
  refine ⟨by decide, by decide +kernel, by decide +kernel, fun h hh hc => ?_⟩
  rw [program_holds] at hc
  have hc : h = 8 := hc
  omega

theorem witness_LanesFollowTheTransaction :
    let record := fun (d : Disposition) => listedRecord readEntry 3 .data d
    State.reset.transaction = none ∧ (opened idleRun freshRecord).transaction = some freshRecord ∧
      freshRecord.command = none ∧ (record .forward).command = some 0x03 ∧
      (record .forward).disposition = .forward ∧ (record .block).disposition = .block ∧
      (record .pending).disposition = .pending ∧ (record .forward).entry = some readEntry ∧
      { freshRecord with command := some 0x9F, disposition := .forward }.entry = none ∧
      (escaped idleRun (.frame [0, 0, 0, 0, 0])).transaction.map (·.channel) =
        some (.frame [0, 0, 0, 0, 0]) ∧
      ([0, 0, 0, 0, 0] : List Byte)[4]? = some 0 ∧ ([0, 0, 0, 0, 0] : List Byte).length ≤ 5 := by
  decide +kernel
/-! ## Witnesses: the pool and the engine -/

theorem witness_ReadByteIsDeliveredAndReported :
    let tr : Transaction := { listedRecord readEntry 3 .data .forward with current := 16 * 32768 }
    let s := opened (running .failed .unseen) tr
    let u := opened (inPower idleRun .enteringDoze) tr
    s.transaction = some tr ∧ tr.disposition = .forward ∧ tr.stage = .data ∧ tr.entry = some readEntry ∧
      readEntry.cls = .read ∧ tr.addressLength ≠ 0 ∧ s.segState 16 = some .failed ∧
      s.regionOf 16 = some sampleRegion ∧ sampleRegion.read = .blank ∧ s.power.state = .active ∧
      u.power.state ≠ .active ∧ (builtInEntry 0x06 .pass .zero 0 .kib4).cls ≠ .read ∧
      programEntry.cls ≠ .read ∧ (listedRecord programEntry 3 .data .forward).addressLength = 3 := by
  decide +kernel
theorem witness_ReportedBytesFollowTheByteRule :
    let s := withContexts (running .hashing .unseen) [contextOn 16 5 .verify .nothing]
    s.segState 16 = some .hashing ∧ s.pool.context 0 = some (contextOn 16 5 .verify .nothing) ∧
      s.segState 17 = some .unseen ∧ s.pool.context 1 = none ∧ 1 < s.pool.slots.length ∧
      (∀ j, j < 1 → s.pool.context j ≠ none) ∧ s.segState 18 = none ∧
      (∀ i j c d, s.pool.context i = some c → s.pool.context j = some d → c.seg = 16 → d.seg = 16 → i = j) := by
  refine ⟨by decide +kernel, by decide +kernel, by decide +kernel, by decide +kernel, by decide, by decide,
    by decide +kernel, ?_⟩
  intro i j c d hi hj _ _
  have h := forall_contexts (p := (withContexts (running .hashing .unseen)
    [contextOn 16 5 .verify .nothing]).pool) (P := fun i _ => i = 0) (by decide +kernel)
  rw [h i c hi, h j d hj]
/-- A full pool: an allocation evicts. -/
theorem witness_ReportedBytesFollowTheByteRule_full :
    let s := withContexts (running .hashing .unseen) (List.replicate 6 (contextOn 16 5 .verify .nothing))
    s.segState 17 = some .unseen ∧ (∀ j, j < s.pool.slots.length → s.pool.context j ≠ none) ∧
      s.victim = some 0 := by decide +kernel
theorem witness_LastByteDecidesTheSegment :
    let s := withContexts (running .hashing .verified)
      [contextOn 16 32767 .verify .nothing, contextOn 17 0 .patrol .nothing]
    s.pool.context 0 = some (contextOn 16 32767 .verify .nothing) ∧
      (contextOn 16 32767 .verify .nothing).fill + 1 = 32768 ∧
      (contextOn 17 0 .patrol .nothing).fill + 1 ≠ 32768 ∧ s.entry 16 = some (sampleSegment 16 .hashing) ∧
      Config.segParity (sampleSegment 16 .hashing).digest (sampleSegment 16 .hashing).region =
        (sampleSegment 16 .hashing).parity ∧ s.control.phase ≠ .halted :=
  ⟨rfl, rfl, by decide, rfl, rfl, by decide⟩

/-- A parity that differs, and the digest of the byte that follows. -/
theorem witness_LastByteDecidesTheSegment_compares :
    let c := contextOn 16 32767 .verify .nothing
    let e : SegEntry := { sampleSegment 16 .hashing with parity := ~~~ Config.segParity 0 0 }
    let f : SegEntry := { sampleSegment 16 .hashing with digest := (c.digest.push 0).final }
    Config.segParity e.digest e.region ≠ e.parity ∧ (c.digest.push 0).final = f.digest ∧
      (c.digest.push 0).final ≠ (sampleSegment 16 .hashing).digest := by
  refine ⟨?_, rfl, by decide +kernel⟩
  show Config.segParity 0 0 ≠ ~~~ Config.segParity 0 0
  generalize Config.segParity 0 0 = x
  revert x; decide
theorem witness_EvictionTakesPatrolThenOldest :
    let s := reading (withContexts (running .hashing .verified)
      [contextOn 16 5 .verify .fetch, contextOn 17 7 .patrol .nothing]) (.fill 0) 16 5
    s.pool.context 1 = some (contextOn 17 7 .patrol .nothing) ∧
      (contextOn 17 7 .patrol .nothing).role = .patrol ∧
      s.pool.context 0 = some (contextOn 16 5 .verify .fetch) ∧ s.engine.read ≠ none ∧
      (∀ j d, (withContexts (running .hashing .unseen) [contextOn 16 5 .verify .nothing]).pool.context j =
        some d → d.role = .verify) :=
  ⟨rfl, rfl, rfl, by decide +kernel, forall_contexts (P := fun _ d => d.role = .verify) (by decide +kernel)⟩
theorem witness_DeassertEndsTheTransaction :
    let fwd := fun (e : ClassEntry) (n : Nat) => listedRecord e n .data .forward
    let s := { opened idleRun (fwd readEntry 3) with pool := { idleRun.pool with record := some ⟨16, true⟩ } }
    s.control.phase = .run ∧ (s.port .p0).upstream = true ∧ s.transaction = some (fwd readEntry 3) ∧
      (fwd readEntry 3).port = .p0 ∧ s.pool.record = some ⟨16, true⟩ ∧ s.power.state = .active ∧
      (opened idleRun freshRecord).transaction.map (·.disposition) = some .pending ∧
      (escaped idleRun (.parameters 7 1)).transaction.map (·.channel) = some (.parameters 7 1) ∧
      (opened idleRun (fwd (builtInEntry 0xB7 .mode4 .zero 0 .kib4) 0)).transaction.map (·.disposition) =
        some .forward ∧
      ({ idleRun with port1 := { idleRun.port1 with upstream := true } } : State).transaction = none := by
  decide +kernel
theorem witness_FillAndPatrolReadsStart :
    idleRun.pool.freeSlot = some 0 ∧ (contextOn 16 5 .verify .nothing).role = .verify ∧
      (withContexts (running .hashing .verified) [contextOn 17 7 .patrol .nothing]).pool.context 0 =
        some (contextOn 17 7 .patrol .nothing) := by decide +kernel

/-- The pool law from its parts over the slots and the entries. -/
theorem poolLaw_of {s : State} (h1 : s.pool.slots.length = 6)
    (h2 : ∀ i, i < 6 → ∀ c ∈ s.pool.context i, ∀ j, j < 6 → ∀ d ∈ s.pool.context j,
      c.seg = d.seg ∨ (c.role = .patrol ∧ d.role = .patrol) → i = j)
    (h3 : ∀ i, i < 6 → ∀ c ∈ s.pool.context i, c.fill < 32768 ∧
      s.segState c.seg = some (match c.role with | .verify => SegState.hashing | .patrol => .verified))
    (h4 : ∀ e ∈ s.segments, s.segState e.seg = some .hashing →
      ∃ i, i < 6 ∧ (s.pool.context i).map (·.seg) = some e.seg)
    (h5 : s.pool.gaps.length ≤ 32 ∧ s.pool.gaps.Nodup ∧
      ∀ g ∈ s.pool.gaps, s.segState g = some .unseen ∨ s.segState g = some .hashing)
    (h6 : s.control.phase = .run) : s.poolLaw := by
  refine ⟨h1, ?_, ?_, ?_, h5.1, h5.2.1, h5.2.2, ?_⟩
  · intro i j c d hi hj hcd
    have hlt := forall_contexts (p := s.pool) (P := fun i _ => i < 6) (fun i hi _ _ => h1 ▸ hi)
    exact h2 i (hlt i c hi) c hi j (hlt j d hj) d hj hcd
  · exact forall_contexts (fun i hi c hc => h3 i (h1 ▸ hi) c hc)
  · intro g hg
    have : ∃ e ∈ s.segments, e.seg = g := by
      unfold State.segState State.entry at hg
      cases hf : s.segments.find? (fun e => e.seg == g) with
      | none => rw [hf] at hg; cases hg
      | some e => exact ⟨e, List.mem_of_find?_eq_some hf, by simpa using List.find?_some hf⟩
    obtain ⟨e, he, rfl⟩ := this
    obtain ⟨i, -, hi⟩ := h4 e he hg
    obtain ⟨c, hc, hcs⟩ := Option.map_eq_some_iff.1 hi
    exact ⟨i, c, hc, hcs⟩
  · rw [h6]; rintro (h | h) <;> cases h

/-- A state with gap queue 17, a live proof of 16 at fill 5 and 17 UNSEEN. -/
def gapState : State :=
  let s := withContexts (running .hashing .unseen) [contextOn 16 5 .verify .nothing]
  { s with pool := { s.pool with gaps := [17] } }

theorem gapState_poolLaw : gapState.poolLaw :=
  poolLaw_of (by decide +kernel) (by decide +kernel) (by decide +kernel) (by decide +kernel)
    (by decide +kernel) rfl
theorem witness_GapQueueThenLiveContextsAreServed :
    let s : State := { gapState with pool := { gapState.pool with gaps := [] } }
    gapState.poolLaw ∧ s.poolLaw ∧ gapState.control.phase = .run ∧ gapState.power.state = .active ∧
      gapState.engine.job = .idle ∧ gapState.pool.gaps = [] ++ 17 :: [] ∧
      (gapState.port (segmentPort 17)).available = true ∧
      (gapState.port (segmentPort 17)).owner = .nobody ∧ gapState.segState 17 = some .unseen ∧
      gapState.segState 16 = some .hashing ∧ gapState.pool.context 1 = none ∧
      s.pool.context 0 = some (contextOn 16 5 .verify .nothing) ∧
      (∀ j d, s.pool.context j = some d → j = 0) :=
  ⟨gapState_poolLaw, poolLaw_of (by decide +kernel) (by decide +kernel) (by decide +kernel)
    (by decide +kernel) (by decide +kernel) rfl, rfl, rfl, rfl, rfl, rfl, rfl, by decide +kernel,
    by decide +kernel, rfl, rfl, forall_contexts (P := fun j _ => j = 0) (by decide +kernel)⟩
theorem witness_SweepTakesMaskedThenTouchedRegions :
    idleRun.control.phase = .run ∧ idleRun.power.state = .active ∧ idleRun.engine.job = .idle ∧
      (∃ i, i < idleRun.pool.slots.length ∧ idleRun.pool.context i = none) ∧ idleRun.pool.gaps = [] ∧
      (∀ j d, idleRun.pool.context j = some d → False) ∧ idleRun.regions[0]? = some sampleRegion ∧
      (idleRun.port .p0).available = true ∧ (idleRun.port .p0).owner = .nobody ∧
      0 < sampleRegion.count ∧ idleRun.segState (0 * 1024 + 16 + 0) = some .unseen ∧
      idleRun.regions.length = 1 :=
  ⟨rfl, rfl, rfl, ⟨0, by decide, rfl⟩, rfl, forall_contexts (P := fun _ _ => False) (by decide +kernel), rfl,
    rfl, rfl, by decide, by decide +kernel, rfl⟩

/-- Both segments VERIFIED, the boot confirmed, the patrol due. -/
def patrolState : State :=
  let s := running .verified .verified
  { s with
    control := { s.control with bootConfirmed := true }
    settings := { s.settings with patrol := 10 }
    engine := { s.engine with due := true, cursor := 17 } }

theorem patrolState_unseen : ∀ g, patrolState.segState g ≠ some .unseen := by
  intro g h
  unfold State.segState State.entry at h
  cases hf : patrolState.segments.find? (fun e => e.seg == g) with
  | none => rw [hf] at h; cases h
  | some e =>
    rw [hf] at h
    have : ∀ e ∈ patrolState.segments, e.state = .verified := by decide +kernel
    have := this e (List.mem_of_find?_eq_some hf)
    simp [this] at h
/-- The same with port 0 in the controller's hands and all six contexts live on it. -/
def patrolFull : State :=
  let s := withContexts patrolState
    [contextOn 16 5 .verify .nothing, contextOn 17 5 .verify .nothing, contextOn 18 5 .verify .nothing,
     contextOn 19 5 .verify .nothing, contextOn 20 5 .verify .nothing, contextOn 21 5 .verify .nothing]
  { s with port0 := { s.port0 with owner := .passThrough }, pool := { s.pool with gaps := [16] } }
theorem witness_PatrolTakesTheFirstEligibleSegment :
    let s := withContexts patrolState [contextOn 16 5 .patrol .nothing]
    patrolState.control.phase = .run ∧ patrolState.power.state = .active ∧
      patrolState.engine.job = .idle ∧ patrolState.pool.gaps = [] ∧ patrolState.pool.slots.length = 6 ∧
      (∀ j d, s.pool.context j = some d → j = 0 ∧ d.role = .patrol) ∧
      (∀ j d, patrolState.pool.context j = some d → False) ∧
      (∀ g, patrolState.segState g ≠ some .unseen) ∧
      s.pool.context 0 = some (contextOn 16 5 .patrol .nothing) ∧ s.pool.context 1 = none ∧
      patrolState.settings.patrol ≠ 0 ∧ patrolState.control.bootConfirmed = true ∧
      patrolState.engine.due = true ∧ patrolState.patrolEligible 17 = true ∧
      patrolState.engine.cursor ≤ 17 ∧ patrolFull.pool.slots.length = 6 ∧
      (∀ g ∈ patrolFull.pool.gaps, ¬ (patrolFull.port (segmentPort g)).owner = .nobody) ∧
      (∀ i c, patrolFull.pool.context i = some c → c.role = .verify ∧
        ¬ (patrolFull.port (segmentPort c.seg)).owner = .nobody) ∧
      (∀ i, i < 6 → patrolFull.pool.context i ≠ none) :=
  ⟨rfl, rfl, rfl, rfl, rfl, forall_contexts (P := fun j d => j = 0 ∧ d.role = .patrol) (by decide +kernel),
    forall_contexts (P := fun _ _ => False) (by decide +kernel), patrolState_unseen, rfl, rfl, by decide, rfl,
    rfl, by decide +kernel, by decide, rfl, by decide +kernel,
    forall_contexts (P := fun _ c => c.role = .verify ∧
      ¬ (patrolFull.port (segmentPort c.seg)).owner = .nobody) (by decide +kernel), by decide +kernel⟩
theorem witness_FetchBytesExtendTheReadsContext :
    let s := reading (withContexts (running .hashing .unseen) [contextOn 16 32767 .verify .fetch])
      (.fill 0) 16 32767
    s.engine.read.map (·.kind) = some (.fill 0) ∧
      s.pool.context 0 = some (contextOn 16 32767 .verify .fetch) ∧ s.control.phase = .run ∧
      (contextOn 16 32767 .verify .fetch).fill + 1 = 32768 ∧
      s.entry 16 = some (sampleSegment 16 .hashing) ∧
      Config.segParity (sampleSegment 16 .hashing).digest (sampleSegment 16 .hashing).region =
        (sampleSegment 16 .hashing).parity :=
  ⟨rfl, rfl, rfl, rfl, rfl, rfl⟩
theorem witness_HoldoffAndPatrolTimersElapse :
    let s : State := { idleRun with
      port0 := { idleRun.port0 with holdoff := some 1023, available := false }
      engine := { idleRun.engine with timer := ⟨some 0, 65535⟩ } }
    (s.port .p0).holdoff = some 1023 ∧ (s.port .p0).upstream = false ∧
      ((s.port .p0).deselect + BitVec.ofNat 32 1023 - s.time).toNat < 2 ^ 31 ∧
      s.engine.timer = ⟨some 0, 65535⟩ ∧
      ((0 : Time) + BitVec.ofNat 32 (1000 * 65535) - s.time).toNat < 2 ^ 31 := by decide +kernel

/-! ## Witnesses: gates, alert, requests, wake, laws -/

theorem witness_GatesMoveByTheTable :
    (running .verified .verified).gateGood (running .verified .verified).gates.print = true ∧
      (running .verified .verified).gates.print.state = .off ∧
      (running .verified .verified).control.bootConfirmed = false ∧
      (running .verified .verified).settings.interval = 0 ∧
      idleRun.gateGood idleRun.gates.print = false ∧
      ({ idleRun.settings with interval := 255 } : Settings).interval ≠ 0 := by decide +kernel
/-- The print gate in a state, its timer of 255 ms started at 0. -/
def timed (s : State) (st : GateState) : State := { s with
  gates := { s.gates with print := { s.gates.print with state := st }, timer := some ⟨0, 255, false⟩ }
  lines := { s.lines with epwr := true } }

/-- R145: a trip taken before the expiry of the same instant restarts the timer in FALLING, and the expiry
that follows leaves the gate and the time as they are. -/
theorem test_trip_before_the_expiry :
    let s := timed { idleRun with time := 255000, settings := { idleRun.settings with interval := 255 } } .rising
    let u := s.settleGates
    gives (exec .sequenceTimerExpiry u) (fun v => v.gates.print.state = .falling ∧ v.time = 255000 ∧
      v.gates.timer = some ⟨255000, 255, false⟩ ∧ v.lines.earm = false) := by decide +kernel
theorem witness_SequenceTimerMovesThePrintGate :
    let s := timed idleRun .rising
    let u := timed (inPower idleRun .enteringDoze) .falling
    let r : State := { u with gates := { u.gates with timer := some ⟨0, 255, true⟩ } }
    s.gates.timer = some ⟨0, 255, false⟩ ∧ r.gates.timer = some ⟨0, 255, true⟩ ∧ r.time = 0 ∧ ((0 : Time) + BitVec.ofNat 32 (1000 * 255) - s.time).toNat < 2 ^ 31 ∧
      s.gates.print.state = .rising ∧ s.control.bootConfirmed = false ∧
      patrolState.control.bootConfirmed = true ∧ u.gates.print.state = .falling ∧
      u.power.state = .enteringDoze ∧ u.gates.scan.state = .off ∧
      (timed idleRun .falling).power.state ≠ .enteringDoze := by decide +kernel
theorem witness_DeadlineAndTamperPushAndTrip :
    let s : State := { idleRun with gates := { idleRun.gates with deadline := .armed, deadlineAt := 5000 } }
    let u := fun (level : Bool) (run : Nat) => ({ idleRun with
      gates := { idleRun.gates with tamper := level, tamperRun := run } } : State)
    idleRun.gates.deadline ≠ .armed ∧ s.gates.deadline = .armed ∧ s.control.phase = .run ∧
      (s.gates.deadlineAt - s.time).toNat < 2 ^ 31 ∧ idleRun.lines.rst = false ∧
      (idleRun.gates.sampledAt + 1000 - idleRun.time).toNat < 2 ^ 31 ∧
      (u false 2).gates.tamperRun < 3 ∧ (u false 3).gates.tamperRun = 3 ∧ (u true 3).gates.tamper = true ∧
      (u false 3).control.phase ≠ .halted := by decide +kernel
theorem witness_AlertLineLevelAndPulses :
    let s := fun (n : Nat) (x : AlertTime) => ({ idleRun with
      alert := { asserted := x.isPulse, pendingPulses := n, timing := x } } : State)
    (s 0 .idle).alert.timing = .idle ∧ (s 15 (.gap 0)).alert.timing ≠ .idle ∧
      ((0 : Time) + 2 - idleRun.time).toNat < 2 ^ 31 ∧ (s 1 (.pulse 0)).alert.timing = .pulse 0 ∧
      (s 0 (.gap 0)).alert.pendingPulses = 0 ∧ 0 < (s 15 (.gap 0)).alert.pendingPulses := by decide +kernel
theorem witness_FetchCopiesTheBuffer :
    let s := fun (b : Buffer) => ({ escaped idleRun .awaiting with buffer := b } : State)
    (s Buffer.afterReset).transaction.map (·.disposition) = some .request ∧
      (s Buffer.afterReset).transaction.map (·.channel) = some .awaiting ∧
      Buffer.afterReset.state = .empty ∧ (Buffer.mk .working 1 12 none []).state = .working ∧
      (Buffer.mk .ready 1 1 (some .ok) []).status = some .ok := by decide +kernel
theorem witness_LengthByteIsJudgedInOrder :
    let s := escaped idleRun .awaiting
    let busy : State := { s with buffer := ⟨.working, 1, 12, none, []⟩ }
    let late := opened idleRun { freshRecord with
      waking := true, command := some 0x4E, stage := .data, disposition := .request }
    s.transaction.map (·.disposition) = some .request ∧ s.transaction.map (·.channel) = some .awaiting ∧
      busy.buffer.state = .working ∧ s.buffer.state ≠ .working ∧ 12 < (0x0D : Byte).toNat ∧
      (0x0C : Byte).toNat ≤ 12 ∧ accepts s.control.phase s.power.state 0x0C = true ∧
      accepts recovering.control.phase recovering.power.state 0x07 = false ∧ (7 : Byte).toNat ≠ 8 ∧
      late.transaction.map (·.waking) = some true ∧ late.power.state = .active ∧
      accepts late.control.phase .waking 0x01 = true ∧ accepts late.control.phase .waking 0x09 = false := by
  decide +kernel
/-- In RUN and ACTIVE the channel awaits every one of the twelve requests. -/
theorem escaped_awaits (s : State) (code tag : Byte) (h1 : s.control.phase = .run)
    (h2 : s.power.state = .active) (h3 : s.buffer.state = .empty) (h4 : 0 < code.toNat)
    (h5 : code.toNat ≤ 12) : (escaped s .awaiting).awaits code tag := by
  refine .inr ⟨rfl, ?_, ?_⟩
  · show s.buffer.state ≠ .working
    rw [h3]; decide
  · show accepts s.control.phase (escaped s .awaiting).requestPower code = true
    rw [State.requestPower_of_some (s := escaped s .awaiting) rfl]
    show accepts s.control.phase s.power.state code = true
    rw [h1, h2]
    revert code; decide
theorem witness_AcceptanceByPhaseAndPower : 255 < 256 := by decide
theorem witness_StatusReportsThePart : (escaped idleRun .awaiting).awaits 1 0 :=
  escaped_awaits _ _ _ rfl rfl rfl (by decide) (by decide)
theorem witness_VerdictsReportTheRegions : (escaped idleRun .awaiting).awaits 2 0 ∧
    (∀ i, i < 16 → (1 : BitVec 16).getLsbD i =
      (((0xFF : Byte) ++ (0xFF : Byte)).getLsbD i && decide (i < idleRun.regions.length))) :=
  ⟨escaped_awaits _ _ _ rfl rfl rfl (by decide) (by decide), by decide +kernel⟩
theorem witness_FaultRecordsAreReadAndAcknowledged :
    let r : FaultRecord := ⟨.blocked, 0, .run, none, none, none, 0x60⟩
    let s : State := { idleRun with faults := [r, r, r] }
    (escaped s .awaiting).awaits 3 0 ∧ (escaped s .awaiting).awaits 4 0 ∧ s.faults[2]? = some r ∧
      s.faults.length ≤ (3 : Byte).toNat ∧ s.faults = r :: [r, r] ∧ idleRun.faults = [] :=
  ⟨escaped_awaits _ _ _ rfl rfl rfl (by decide) (by decide),
    escaped_awaits _ _ _ rfl rfl rfl (by decide) (by decide), rfl, by decide, rfl, rfl⟩
theorem witness_RearmAndForceOffActOnTheLatches :
    let s : State := { idleRun with
      gates := { idleRun.gates with print := { idleRun.gates.print with latch := true } } }
    (escaped s .awaiting).awaits 5 0 ∧ (escaped s .awaiting).awaits 6 0 ∧
      (1 : Byte).getLsbD 0 = true ∧ s.gates.print.latch = true ∧ (2 : Byte).getLsbD 0 = false ∧
      s.gates.scan.latch = false ∧ s.settled ∧ s.linesFollow ∧ (0xFC : Byte).getLsbD 1 = false :=
  ⟨escaped_awaits _ _ _ rfl rfl rfl (by decide) (by decide),
    escaped_awaits _ _ _ rfl rfl rfl (by decide) (by decide), rfl, rfl, rfl, rfl,
    ⟨by decide +kernel, by decide +kernel, .inl rfl⟩, ⟨rfl, rfl, rfl⟩, rfl⟩
theorem witness_SettingsLockFillMaskAndTime :
    (escaped idleRun .awaiting).awaits 7 0 ∧ (escaped idleRun .awaiting).awaits 8 0 ∧
      (escaped idleRun .awaiting).awaits 9 0 ∧ (escaped idleRun .awaiting).awaits 10 0 ∧
      (escaped { idleRun with lock := true } .awaiting).awaits 7 0 ∧ idleRun.lock = false :=
  ⟨escaped_awaits _ _ _ rfl rfl rfl (by decide) (by decide),
    escaped_awaits _ _ _ rfl rfl rfl (by decide) (by decide),
    escaped_awaits _ _ _ rfl rfl rfl (by decide) (by decide),
    escaped_awaits _ _ _ rfl rfl rfl (by decide) (by decide),
    escaped_awaits _ _ _ rfl rfl rfl (by decide) (by decide), rfl⟩

/-- A gate law in a state whose gates are OFF. -/
theorem gateLaw_of_off {s : State} (h1 : s.gates.print.state = .off) (h2 : s.gates.scan.state = .off)
    (h3 : s.gates.timer = none) (h4 : s.lines.epwr = false) (h5 : s.lines.earm = false)
    (h6 : s.lines.scnen = false) : s.gateLaw := by
  refine ⟨⟨?_, ?_, ?_⟩, ⟨?_, .inl h2⟩, fun _ => h1, ?_, ?_⟩
  · rw [h1, h4]; rfl
  · rw [h1, h5]; rfl
  · rw [h2, h6]; rfl
  · rw [h3, h1]; simp
  · rw [h1]; rintro (h | h) <;> cases h
  · rw [h2]; intro h; cases h
theorem witness_DozeStartsDozeEntry :
    (escaped gapState .awaiting).awaits 11 0 ∧ (escaped gapState .awaiting).poolLaw ∧
      (escaped gapState .awaiting).gateLaw ∧ gapState.power.state = .active ∧
      (inPower idleRun .enteringDoze).power.state = .enteringDoze ∧
      (escaped (inPower idleRun .enteringDoze) .awaiting).awaits 11 0 :=
  ⟨escaped_awaits _ _ _ rfl rfl rfl (by decide) (by decide),
    poolLaw_of (by decide +kernel) (by decide +kernel) (by decide +kernel) (by decide +kernel)
      (by decide +kernel) rfl,
    gateLaw_of_off rfl rfl rfl rfl rfl rfl, rfl, rfl, .inr ⟨rfl, by decide, by decide⟩⟩
theorem witness_AdvancePlansItsBits :
    (escaped patrolState .awaiting).awaits 12 0 ∧ patrolState.control.manifest.isSome = true ∧
      patrolState.control.bootConfirmed = true ∧ (∀ e ∈ patrolState.segments, e.state ≠ .failed) ∧
      patrolState.advancePlan ≠ [] ∧ idleRun.control.bootConfirmed = false ∧
      State.advancePlan { patrolState with fuses := { sampleFuses with revoked := 2 } } = [] :=
  ⟨escaped_awaits _ _ _ rfl rfl rfl (by decide) (by decide), rfl, rfl, by decide +kernel, by decide +kernel,
    rfl, by decide +kernel⟩
theorem witness_FuseBitsAreVerifiedOneByOne :
    let s : State := { idleRun with advance := [.row 0, .flag 1] }
    s.advance = .row 0 :: [.flag 1] ∧ s.control.manifest.isSome = true ∧
      (s.fuses.rows.getD 0 0).getLsbD 0 = false ∧ s.control.phase ≠ .halted ∧
      ({ idleRun with advance := [.flag 1] } : State).advance = .flag 1 :: [] := by decide +kernel

/-- WAKING with the settle timer started at 0. -/
def waking (s : State) : State := { s with power := { state := .waking, fpwr := true, settle := some 0 } }

/-- The engine on a wake read. -/
def wakeReading (s : State) (r : FetchRead) : State := { waking s with
  engine := { s.engine with
    job := .wake, read := some r, wake0 := some sampleContext.identity0
    wake1 := some sampleContext.identity1 } }

theorem witness_WakeReadsFollowTheSettleTimer :
    (waking idleRun).power.settle = some 0 ∧ ((0 : Time) + 1000 - (waking idleRun).time).toNat < 2 ^ 31 ∧
      (waking recovering).control.phase = .recovery ∧ (waking idleRun).control.phase = .run ∧
      (wakeReading idleRun (identityRead .p0 .wakeIdentity)).engine.read =
        some (identityRead .p0 .wakeIdentity) ∧
      (identityRead .p1 .wakeIdentity).port = .p1 ∧ idleRun.control.context = some sampleContext := by
  decide +kernel

/-- A header whose body length is 128, sequence 0 and slot 0: the active anchor of the sample context. -/
def wakeBytes : List Byte := leBytes 32 0 ++ leBytes 4 128 ++ List.replicate 92 0

theorem witness_WakeCheckDecides :
    let s := wakeReading idleRun idleRun.wakeBodyRead
    s.engine.read = some idleRun.wakeBodyRead ∧ idleRun.wakeBodyRead.kind = .wakeBody ∧
      idleRun.wakeBodyRead.port = .p0 ∧ s.control.context = some sampleContext ∧ s.control.phase = .run ∧
      s.lines.crst = false ∧ 128 ≤ field wakeBytes 32 4 ∧ field wakeBytes 32 4 ≤ 131008 ∧
      wakeBytes.length = field wakeBytes 32 4 ∧ sha256 wakeBytes = sampleContext.digest ∧
      field wakeBytes 8 4 = sampleContext.sequence ∧ field wakeBytes 5 1 = sampleContext.slot ∧
      s.engine.wake0 = some sampleContext.identity0 ∧ s.engine.wake1 = some sampleContext.identity1 ∧
      field (List.replicate 128 0xFF) 32 4 > 131008 := by decide +kernel
theorem test_wake_match : gives (exec (.wakeCheck wakeBytes) (wakeReading idleRun idleRun.wakeBodyRead))
    (fun t => decide (t.power.state = .active ∧ t.control.phase = .run)) = true := by decide +kernel
/-- R188: an erased anchor yields no digest; 12.3: bit 3. -/
theorem test_wake_no_digest : gives (exec (.wakeCheck (List.replicate 128 0xFF))
      (wakeReading idleRun idleRun.wakeBodyRead))
    (fun t => decide (t.control.phase = .recovery ∧ t.faults.map (·.detail) = [8] ∧
      t.gates.print.latch = true)) = true := by decide +kernel

/-- The laws hold in one state of RUN, and a command takes it to a next state. -/
theorem witness_GateLawIsKeptByEveryStep :
    gives (step { idleRun with pending := [.wakeEdge] }) (fun _ => true) = true ∧
      ({ idleRun with pending := [.wakeEdge] } : State).gateLaw :=
  ⟨by decide +kernel, gateLaw_of_off rfl rfl rfl rfl rfl rfl⟩
theorem idleRun_readLaw : ({ idleRun with pending := [.wakeEdge] } : State).readLaw :=
  ⟨fun _ h => (by cases h), fun h => (by cases h), fun h => (by cases h)⟩
theorem witness_PoolLawIsKeptByEveryStep :
    ({ idleRun with pending := [.wakeEdge] } : State).readLaw ∧
      ({ idleRun with pending := [.wakeEdge] } : State).poolLaw :=
  ⟨idleRun_readLaw, poolLaw_of (by decide +kernel) (by decide +kernel) (by decide +kernel)
    (by decide +kernel) (by decide +kernel) rfl⟩
theorem witness_FusesLockAndBootOnlyGrow :
    ({ idleRun with pending := [.wakeEdge] } : State).pending.head? ≠ some .reset ∧
      ({ idleRun with lock := true } : State).lock = true ∧ patrolState.control.bootConfirmed = true := by
  decide
theorem witness_HaltedReadAndCrstLawsAreKept :
    ({ idleRun with pending := [.wakeEdge] } : State).haltedLaw ∧
      ({ idleRun with pending := [.wakeEdge] } : State).crstLaw ∧
      idleRun.enterHalted.control.phase = .halted ∧ idleRun.enterHalted.haltedLaw ∧
      idleRun.enterHalted.readLaw ∧ idleRun.enterHalted.crstLaw :=
  ⟨fun h => (by cases h), ⟨fun h => (by cases h), fun h => (by rcases h with h | h <;> cases h)⟩, rfl,
    fun _ => by decide +kernel, ⟨fun _ h => (by cases h), fun h => (by cases h), fun h => (by cases h)⟩,
    ⟨fun _ => .inr rfl, fun _ => rfl⟩⟩
theorem witness_FaultAndAlertLawsAreKept :
    ({ idleRun with pending := [.wakeEdge] } : State).faultLaw ∧
      ({ idleRun with pending := [.wakeEdge] } : State).alertLaw :=
  ⟨⟨by decide, fun _ h => (by cases h)⟩, ⟨rfl, rfl, rfl⟩⟩

end Sys2Proof.Machine
end

section
/-!
The affected segments of a write (R15). `State.affected` answers a run of segments, its first and how many; the
rule speaks of the segments a range of addresses meets. The two are tied once, by `holds_spanning_iff`.
-/
namespace Sys2Proof.Machine

/-- Membership in a run, as the two bounds. -/
theorem SegmentRun.holds_iff (r : SegmentRun) (g : Nat) :
    r.holds g = true ↔ r.first ≤ g ∧ g < r.first + r.count := by
  simp [SegmentRun.holds]

theorem SegmentRun.holds_single_iff (f g : Nat) : (SegmentRun.mk f 1).holds g = true ↔ g = f := by
  rw [SegmentRun.holds_iff]
  show f ≤ g ∧ g < f + 1 ↔ g = f
  omega

/-- The segments of a port from that of address `lo` to that of address `hi` are those of the addresses
between. The address that shows a segment is met is its first byte, or `lo` where the segment begins
before the range does. -/
theorem SegmentRun.holds_spanning_iff (base g : Nat) {lo hi : Nat} (hle : lo ≤ hi) :
    (SegmentRun.mk (base + lo / segmentBytes) (hi / segmentBytes - lo / segmentBytes + 1)).holds g = true ↔
      ∃ x, lo ≤ x ∧ x ≤ hi ∧ g = base + x / segmentBytes := by
  have hmono : lo / segmentBytes ≤ hi / segmentBytes := Nat.div_le_div_right hle
  rw [SegmentRun.holds_iff]
  simp only [segmentBytes] at hmono ⊢
  constructor
  · rintro ⟨hfirst, hlast⟩
    refine ⟨max lo ((g - base) * 32768), Nat.le_max_left .., ?_, ?_⟩ <;> omega
  · rintro ⟨x, hlo, hhi, rfl⟩
    have hleft : lo / 32768 ≤ x / 32768 := Nat.div_le_div_right hlo
    have hright : x / 32768 ≤ hi / 32768 := Nat.div_le_div_right hhi
    omega

theorem EraseExtent.bytes_pos {x : EraseExtent} {size : Nat} (h : x.bytes = some size) : 0 < size := by
  cases x <;> cases h <;> decide

namespace State

theorem wholePort_holds_iff (s : State) (p : Port) (g : Nat) :
    (s.wholePort p).holds g = true ↔
      portNumber p * 1024 ≤ g ∧ g < portNumber p * 1024 + s.portSize p / segmentBytes :=
  SegmentRun.holds_iff _ g

/-- An entry without an address: the part cannot tell where the command acts. -/
theorem affected_none (s : State) (p : Port) (e : ClassEntry) : s.affected p e none = s.wholePort p := rfl

theorem affected_program (s : State) (p : Port) {e : ClassEntry} (a : Nat) (he : e.cls = .program) :
    s.affected p e (some a) = ⟨portNumber p * 1024 + a / segmentBytes, 1⟩ := by
  simp [affected, he]

theorem affected_eraseWhole (s : State) (p : Port) {e : ClassEntry} (a : Nat) (he : e.cls = .erase)
    (hx : e.extent = .whole) : s.affected p e (some a) = s.wholePort p := by
  simp [affected, he, hx, EraseExtent.bytes]

theorem affected_eraseSized (s : State) (p : Port) {e : ClassEntry} (a : Nat) {size : Nat}
    (he : e.cls = .erase) (hx : e.extent.bytes = some size) :
    s.affected p e (some a) =
      ⟨portNumber p * 1024 + (a - a % size) / segmentBytes,
        (a - a % size + size - 1) / segmentBytes - (a - a % size) / segmentBytes + 1⟩ := by
  simp [affected, he, hx]

end State

/-- Settles O22: the equation of `State.affected` for each line of R15, then the membership of its run. -/
theorem affectedSegmentsAreThoseTheCommandReaches :
    Obligations.AffectedSegmentsAreThoseTheCommandReaches := by
  intro s p e a g base
  refine ⟨?noAddress, fun he => ?program, fun he hx => ?eraseWhole, fun size he hx => ?eraseSized⟩
  case noAddress =>
    rw [s.affected_none]
    exact s.wholePort_holds_iff p g
  case program =>
    rw [s.affected_program p a he]
    exact SegmentRun.holds_single_iff _ g
  case eraseWhole =>
    rw [s.affected_eraseWhole p a he hx]
    exact s.wholePort_holds_iff p g
  case eraseSized =>
    have hpos : 0 < size := EraseExtent.bytes_pos hx
    rw [s.affected_eraseSized p a he hx]
    exact SegmentRun.holds_spanning_iff base g (by omega)

end Sys2Proof.Machine
end

section
/-!
The verify of one fuse bit (R36 to R38). `blowRow` looks for a row's lowest-numbered unblown bit with a search;
the rule names that bit by what stands below it. The two are tied once, by `blowRow_eq_of_lowest`.
-/
namespace Sys2Proof.Machine

/-- Blowing a row blows the bit that is unblown with every lower bit blown. -/
theorem blowRow_eq_of_lowest {row : BitVec 63} {i : Nat} (hi : i < 63) (hunblown : row.getLsbD i = false)
    (hbelow : ∀ j, j < i → row.getLsbD j = true) : blowRow row = row ||| BitVec.twoPow 63 i := by
  have hfind : (List.range 63).find? (fun j => !row.getLsbD j) = some i :=
    List.find?_range_eq_some.2 ⟨by simp [hunblown], List.mem_range.2 hi, fun j hj => by simp [hbelow j hj]⟩
  simp [blowRow, hfind]

theorem Fuses.blow_flag (f : Fuses) (slot : Nat) :
    f.blow (.flag slot) = { f with revoked := f.revoked ||| BitVec.twoPow 4 slot } := rfl

theorem Fuses.blow_row_of_lowest (f : Fuses) (c : Nat) {i : Nat} (hi : i < 63)
    (hunblown : (f.rows.getD c 0).getLsbD i = false)
    (hbelow : ∀ j, j < i → (f.rows.getD c 0).getLsbD j = true) :
    f.blow (.row c) = { f with rows := f.rows.set c (f.rows.getD c 0 ||| BitVec.twoPow 63 i) } := by
  rw [← blowRow_eq_of_lowest hi hunblown hbelow]
  rfl

namespace State

/-- Outside HALTED a push is recorded and moves the alert line (R160, R74). -/
theorem pushFault_of_not_halted {s : State} (h : s.control.phase ≠ .halted) (k : FaultKind)
    (r g a : Option Nat) (d : Byte) :
    s.pushFault k r g a d = { s with
      faults := pushRecord s.faults ⟨k, s.time, s.control.phase, r, g, a, d⟩
      alert := s.alert.push s.settings.alertMode s.time } :=
  if_neg h

/-- With a manifest in force the end of ADVANCE recomputes the differences from the fuses as they stand
(R31). -/
theorem endAdvance_of_manifest {s : State} {m : ActiveManifest} (h : s.control.manifest = some m)
    (st : Status) :
    s.endAdvance st = { s with
      advance := []
      control := { s.control with differences := s.fuses.differences m.versions }
      buffer := { s.buffer with state := .ready, status := some st, data := [] } } := by
  simp [endAdvance, h]

end State

section verify
variable {s : State} {x y : FuseTarget} {rest : List FuseTarget}

theorem exec_fuseBitVerify_blown_more (h : s.advance = x :: y :: rest) :
    exec (.fuseBitVerify true) s = .next { s with fuses := s.fuses.blow x, advance := y :: rest } := by
  show execFuseBitVerify true s = _
  simp [execFuseBitVerify, h]

theorem exec_fuseBitVerify_blown_last (h : s.advance = [x]) :
    exec (.fuseBitVerify true) s =
      .next (({ s with fuses := s.fuses.blow x, advance := [] } : State).endAdvance .ok) := by
  show execFuseBitVerify true s = _
  simp [execFuseBitVerify, h]

theorem exec_fuseBitVerify_unblown (h : s.advance = x :: rest) :
    exec (.fuseBitVerify false) s =
      .next ((s.pushFault .floorProgram none none none x.detail).endAdvance .fuseFail) := by
  show execFuseBitVerify false s = _
  simp [execFuseBitVerify, h]

end verify

/-- Settles O51: the fuses the statement speaks of are `Fuses.blow` of the target, and each of the verify's
three outcomes is one equation of `exec`. -/
theorem fuseBitsAreVerifiedOneByOne : Obligations.FuseBitsAreVerifiedOneByOne := by
  intro s x rest m f hadv hman hflag hrow
  have hf : f = s.fuses.blow x := by
    cases x with
    | flag slot => rw [hflag slot rfl, Fuses.blow_flag]
    | row c =>
      obtain ⟨i, hi, hunblown, hbelow, hf⟩ := hrow c rfl
      rw [hf, Fuses.blow_row_of_lowest s.fuses c hi hunblown hbelow]
  subst hf
  refine ⟨fun hmore => ?more, fun hlast => ?last, fun hphase => ?unblown⟩
  case more =>
    obtain ⟨y, ys, rfl⟩ := List.exists_cons_of_ne_nil hmore
    exact exec_fuseBitVerify_blown_more hadv
  case last =>
    subst hlast
    rw [exec_fuseBitVerify_blown_last hadv, State.endAdvance_of_manifest (m := m)]
    exact hman
  case unblown =>
    rw [exec_fuseBitVerify_unblown hadv, State.pushFault_of_not_halted hphase,
      State.endAdvance_of_manifest (m := m)]
    · cases x <;> rfl
    · exact hman

end Sys2Proof.Machine
end

section
/-!
Eviction (R103 to R105): what `State.victim` chooses and what `State.evict` leaves, each said once. The eviction
first ends a fetch read that feeds the context; `State.unfed` names the state after that step.
-/
namespace Sys2Proof.Machine

namespace State

theorem victim_of_patrol {s : State} {j : Nat} {d : Context} (hd : s.pool.context j = some d)
    (hrole : d.role = .patrol) :
    ∃ i c, s.victim = some i ∧ s.pool.context i = some c ∧ c.role = .patrol := by
  obtain ⟨i, hi⟩ := Pool.patrolSlot_isSome hd hrole
  obtain ⟨c, hc, hpatrol⟩ := Pool.patrolSlot_some hi
  exact ⟨i, c, by simp [victim, hi], hc, hpatrol⟩

theorem victim_of_no_patrol {s : State} (h : s.pool.patrolSlot = none) :
    s.victim = (oldest s.time (s.pool.verifyContexts (fun _ => true))).map (·.1) := by
  simp [victim, h]

/-- The victim is a live context. -/
theorem victim_some {s : State} {i : Nat} (h : s.victim = some i) : ∃ c, s.pool.context i = some c := by
  cases hp : s.pool.patrolSlot with
  | some k =>
    obtain ⟨c, hc, -⟩ := Pool.patrolSlot_some hp
    have hk : k = i := by simpa [victim, hp] using h
    exact ⟨c, hk ▸ hc⟩
  | none =>
    rw [victim_of_no_patrol hp] at h
    obtain ⟨e, he, rfl⟩ := Option.map_eq_some_iff.1 h
    have hmem := ((oldest_spec s.time _ (s.pool.verifyContexts_sorted _)).2 e he).1
    exact ⟨e.2, (Pool.mem_verifyContexts.1 hmem).1⟩

/-- Where every live context is a VERIFY context, the victim is at least as old as any of them, and the
lowest-numbered among its equals (R103). -/
theorem victim_of_verify {s : State} (hall : ∀ j d, s.pool.context j = some d → d.role = .verify)
    {j : Nat} {d : Context} (hd : s.pool.context j = some d) :
    ∃ i c, s.victim = some i ∧ s.pool.context i = some c ∧ d.age s.time ≤ c.age s.time ∧
      (d.age s.time = c.age s.time → i ≤ j) := by
  obtain ⟨hnone, hspec⟩ := oldest_spec s.time _ (s.pool.verifyContexts_sorted (fun _ => true))
  have hmem : (j, d) ∈ s.pool.verifyContexts (fun _ => true) :=
    Pool.mem_verifyContexts.2 ⟨hd, hall j d hd, rfl⟩
  cases he : oldest s.time (s.pool.verifyContexts (fun _ => true)) with
  | none => exact absurd hmem (by simp [hnone.1 he])
  | some e =>
    obtain ⟨hin, hmax⟩ := hspec e he
    exact ⟨e.1, e.2, by rw [victim_of_no_patrol (Pool.patrolSlot_none hall), he]; rfl,
      (Pool.mem_verifyContexts.1 hin).1, hmax (j, d) hmem⟩

/-- A fetch read that feeds the context is ended (R104, R105). -/
def unfed (s : State) (c : Context) : State := if c.source = .fetch then s.endRead else s

theorem unfed_of_nothing {s : State} {c : Context} (h : c.source = .nothing) : s.unfed c = s := by
  simp [unfed, h]

theorem unfed_of_read {s : State} {c : Context} {r : FetchRead} (h : c.source = .fetch)
    (hread : s.engine.read = some r) :
    s.unfed c = { s.setPort r.port (s.port r.port).idle with
      engine := { s.engine with job := .idle, read := none } } := by
  simp [unfed, h, endRead, closeRead, hread]

theorem unfed_frame (s : State) (c : Context) :
    ∃ a b e, s.unfed c = { s with port0 := a, port1 := b, engine := e } := by
  cases h : c.source with
  | nothing => exact ⟨_, _, _, unfed_of_nothing h⟩
  | fetch =>
    obtain ⟨a, b, hend⟩ := s.endRead_frame
    exact ⟨a, b, _, by rw [unfed, if_pos h, hend]⟩

/-- A segment joins the gap queue's newest end, unless it is there or the queue holds 32 (R113). -/
theorem appendGap_eq (s : State) (g : Nat) :
    s.appendGap g = { s with pool := { s.pool with
      gaps := if g ∈ s.pool.gaps ∨ 32 ≤ s.pool.gaps.length then s.pool.gaps else s.pool.gaps ++ [g] } } := by
  by_cases h : g ∈ s.pool.gaps ∨ 32 ≤ s.pool.gaps.length
  · simp [appendGap, h]
  · simp [appendGap, h]

section evict
variable {s : State} {i : Nat} {c : Context} (hc : s.pool.context i = some c)
include hc

/-- The eviction of a VERIFY context (R104). -/
theorem evict_verify (hrole : c.role = .verify) :
    s.evict i = { s.unfed c with
      segments := s.segments.map (fun e => if e.seg = c.seg then { e with state := .unseen } else e)
      pool := { s.pool with
        slots := s.pool.slots.set i none
        gaps := if c.seg ∈ s.pool.gaps ∨ 32 ≤ s.pool.gaps.length then s.pool.gaps
          else s.pool.gaps ++ [c.seg] } } := by
  have h : s.evict i = (((s.unfed c).setSlot i none).setSegState c.seg .unseen).appendGap c.seg := by
    simp [evict, hc, hrole, unfed]
  obtain ⟨a, b, e, hframe⟩ := s.unfed_frame c
  rw [h, hframe, appendGap_eq]
  rfl

/-- The eviction of the PATROL context (R105, R134). -/
theorem evict_patrol (hrole : c.role = .patrol) :
    s.evict i = { s.unfed c with
      pool := { s.pool with slots := s.pool.slots.set i none }
      engine := { (s.unfed c).engine with cursor := c.seg } } := by
  have h : s.evict i = { (s.unfed c).setSlot i none with
      engine := { (s.unfed c).engine with cursor := c.seg } } := by
    simp [evict, hc, hrole, unfed]
  obtain ⟨a, b, e, hframe⟩ := s.unfed_frame c
  rw [h, hframe]
  rfl

/-- An eviction frees its slot and no other. -/
theorem evict_slots : (s.evict i).pool.slots = s.pool.slots.set i none := by
  cases hrole : c.role with
  | verify => rw [evict_verify hc hrole]
  | patrol => rw [evict_patrol hc hrole]

end evict

@[simp] theorem evict_time (s : State) (i : Nat) : (s.evict i).time = s.time := by
  obtain ⟨_, _, _, _, _, _, h⟩ := s.evict_frame i
  rw [h]

end State

/-- Settles O29: the choice is `State.victim` for either role, the effect `State.evict` for either role, and
the state that the statement starts from is the one with the feeding read ended. -/
theorem evictionTakesPatrolThenOldest : Obligations.EvictionTakesPatrolThenOldest := by
  intro s
  refine ⟨fun j d => State.victim_of_patrol, fun hall j d => State.victim_of_verify hall, ?effect⟩
  case effect =>
    intro i c hc t hidle hfed hsource
    have ht : t = s.unfed c := by
      cases hsrc : c.source with
      | nothing => rw [hidle hsrc, State.unfed_of_nothing hsrc]
      | fetch =>
        have hread : s.engine.read ≠ none := by simpa [hsrc] using hsource
        obtain ⟨r, hr⟩ := Option.ne_none_iff_exists'.1 hread
        rw [hfed r hsrc hr, State.unfed_of_read hsrc hr]
        rfl
    subst ht
    exact ⟨State.evict_verify hc, State.evict_patrol hc⟩

end Sys2Proof.Machine
end

section
/-!
The byte rule (R99 to R102), one equation of `State.byteRule` for each of its lines, and the opening of the
transaction record by a reported byte (R101). An allocation ends, free or evicting, in `State.startProof` of
the slot it takes.
-/
namespace Sys2Proof.Machine

namespace Pool
variable {p : Pool} {i : Nat}

theorem context_of_lt (h : i < p.slots.length) : p.context i = p.slots[i] := by
  simp [context, h]

theorem lt_length_of_context {c : Context} (h : p.context i = some c) : i < p.slots.length := by
  refine Nat.lt_of_not_le fun hle => ?_
  have hfree : p.context i = none := by rw [context, List.getD, List.getElem?_eq_none hle]; rfl
  rw [hfree] at h
  cases h

/-- The free slot is the lowest-numbered free context (R102). -/
theorem freeSlot_eq_of_lowest (hi : i < p.slots.length) (hfree : p.context i = none)
    (hbelow : ∀ j, j < i → p.context j ≠ none) : p.freeSlot = some i := by
  refine List.findIdx?_eq_some_iff_getElem.2 ⟨hi, ?_, fun j hj => ?_⟩
  · simp [← context_of_lt hi, hfree]
  · simpa [← context_of_lt (Nat.lt_trans hj hi)] using hbelow j hj

theorem freeSlot_eq_none (hfull : ∀ j, j < p.slots.length → p.context j ≠ none) : p.freeSlot = none := by
  refine Option.not_isSome_iff_eq_none.1 fun h => ?_
  obtain ⟨i, hi, hfree⟩ := p.freeSlot_iff.1 h
  exact hfull i hi hfree

/-- Where no context is on a segment, the segment has no holder. -/
theorem ne_seg_of_holder_none {g : Nat} (h : p.holder g = none) {c : Context}
    (hc : p.context i = some c) : c.seg ≠ g := by
  have hi := lt_length_of_context hc
  have hslot : p.slots[i] = some c := by rw [← context_of_lt hi, hc]
  simpa [holdsSegment, hslot] using List.findIdx?_eq_none_iff.1 h _ (List.getElem_mem hi)

end Pool

namespace State

/-! ### The transaction record -/

/-- A byte lies beyond its segment's proof when it lies beyond 0 and beyond the fill of every context on the
segment; there is at most one (R96, R101). -/
theorem proofReach_lt_iff {s : State} {g offset : Nat}
    (huniq : ∀ i j c d, s.pool.context i = some c → s.pool.context j = some d → c.seg = g → d.seg = g →
      i = j) :
    s.proofReach g < offset ↔
      0 < offset ∧ ∀ i c, s.pool.context i = some c → c.seg = g → c.fill < offset := by
  cases hh : s.pool.holder g with
  | none =>
    have hreach : s.proofReach g = 0 := by simp [proofReach, hh]
    rw [hreach]
    exact ⟨fun h => ⟨h, fun i c hc hg => absurd hg (Pool.ne_seg_of_holder_none hh hc)⟩, And.left⟩
  | some k =>
    obtain ⟨d, hd, hdg⟩ := Pool.holder_some hh
    have hreach : s.proofReach g = d.fill := by simp [proofReach, hh, hd]
    rw [hreach]
    refine ⟨fun h => ⟨by omega, fun i c hc hg => ?_⟩, fun h => h.2 k d hd hdg⟩
    obtain rfl := huniq i k c d hc hd hg hdg
    rw [hd] at hc
    cases hc
    exact h

theorem gapMark_iff (s : State) (g offset : Nat) : s.gapMark g offset = true ↔
    (s.segState g = some .unseen ∨ s.segState g = some .hashing) ∧ s.proofReach g < offset := by
  simp [gapMark]

theorem touch_of_none {s : State} {g : Nat} (h : s.regionIndex g = none) : s.touch g = s := by
  simp [touch, h]

theorem touch_of_some {s : State} {g i : Nat} (h : s.regionIndex g = some i) :
    s.touch g = { s with regions := s.regions.modify i (fun r => { r with touched := true }) } := by
  simp [touch, h]

/-- The record that stands is kept; an empty one takes the byte's segment and gap mark (R101). -/
theorem openRecord_eq (s : State) (g offset : Nat) : s.openRecord g offset = { s with
    pool := { s.pool with record := some (s.pool.record.getD ⟨g, s.gapMark g offset⟩) } } := by
  cases h : s.pool.record with
  | none => simp [openRecord, h]
  | some r =>
    have hpool : { s.pool with record := some r } = s.pool := by rw [← h]
    simp [openRecord, h, hpool]

/-- A reported byte: the touched flag, the record, then the byte rule (R77, R101, R99). -/
theorem reportByte_eq (s : State) {g offset : Nat} (b : Byte) (hoff : offset < 32768) :
    s.reportByte (g * 32768 + offset) b = ((s.touch g).openRecord g offset).byteRule g offset b := by
  have hdiv : (g * 32768 + offset) / segmentBytes = g := by simp only [segmentBytes]; omega
  have hmod : (g * 32768 + offset) % segmentBytes = offset := by simp only [segmentBytes]; omega
  simp only [reportByte, hdiv, hmod]

/-! ### Allocation -/

/-- The proof of a segment begins: context `i` holds its first byte, and the segment is HASHING (R102). -/
def startProof (s : State) (i g : Nat) (b : Byte) : State := { s with
  segments := s.segments.map (fun e => if e.seg = g then { e with state := .hashing } else e)
  pool := { s.pool with slots := s.pool.slots.set i (some
    { seg := g, role := .verify, fill := 1, lastAdvance := s.time, source := .nothing,
      digest := Sha.fresh.push b }) } }

/-- A byte that is not the last of its segment moves its context on (R100). -/
theorem extend_of_short {s : State} {i : Nat} {c : Context} (hc : s.pool.context i = some c)
    (hshort : c.fill + 1 ≠ segmentBytes) (b : Byte) (stream : Stream) :
    s.extend i b stream =
      s.setSlot i (some { c with fill := c.fill + 1, lastAdvance := s.time, digest := c.digest.push b }) := by
  simp [extend, hc, hshort]

/-- The byte that a context is allocated for extends it to fill 1. -/
theorem extend_fresh {s : State} {i : Nat} (hi : i < s.pool.slots.length) (g : Nat) (b : Byte) :
    ((s.setSlot i (some (freshContext g .verify .nothing s.time))).setSegState g .hashing).extend i b
      .passThrough = s.startProof i g b := by
  have hctx : ((s.setSlot i (some (freshContext g .verify .nothing s.time))).setSegState g
      .hashing).pool.context i = some (freshContext g .verify .nothing s.time) := by
    simp [Pool.context, hi]
  rw [extend_of_short hctx (by decide : 0 + 1 ≠ segmentBytes)]
  simp [startProof, setSlot, setSegState, freshContext]

theorem allocate_of_free {s : State} {i : Nat} (h : s.pool.freeSlot = some i) (g : Nat) (b : Byte) :
    s.allocate g b = s.startProof i g b := by
  rw [← extend_fresh (Pool.freeSlot_some h).1]
  simp [allocate, allocationSlot, h]

theorem allocate_of_full {s : State} {i : Nat} (hfull : s.pool.freeSlot = none) (hv : s.victim = some i)
    (g : Nat) (b : Byte) : s.allocate g b = (s.evict i).startProof i g b := by
  obtain ⟨c, hc⟩ := victim_some hv
  have hi : i < (s.evict i).pool.slots.length := by
    rw [evict_slots hc, List.length_set]
    exact Pool.lt_length_of_context hc
  rw [← extend_fresh hi]
  simp [allocate, allocationSlot, hfull, hv]

/-! ### The lines of the byte rule -/

section byteRule
variable {s : State} {g : Nat}

theorem byteRule_of_settled (offset : Nat) (b : Byte) (h : s.segState g = none ∨
    s.segState g = some .verified ∨ s.segState g = some .failed ∨ s.segState g = some .dirty) :
    s.byteRule g offset b = s := by
  rcases h with h | h | h | h <;> simp [byteRule, h]

theorem byteRule_of_hashing {i : Nat} {c : Context} (offset : Nat) (b : Byte)
    (h : s.segState g = some .hashing) (hh : s.pool.holder g = some i) (hc : s.pool.context i = some c) :
    s.byteRule g offset b = if c.fill = offset then s.extend i b .passThrough else s := by
  simp [byteRule, h, hh, hc]

theorem byteRule_of_unseen (offset : Nat) (b : Byte) (h : s.segState g = some .unseen) :
    s.byteRule g offset b = if offset = 0 then s.allocate g b else s := by
  simp [byteRule, h]

end byteRule

end State

/-- Settles O27: the report of a byte is three steps, each one equation, and the byte rule is one equation for
each state of the segment. -/
theorem reportedBytesFollowTheByteRule : Obligations.ReportedBytesFollowTheByteRule := by
  intro s g offset b
  refine ⟨fun mark hoff huniq hmark => ?report, s.byteRule_of_settled offset b,
    fun i c hst hc hg hfirst => ?hashing, fun hst hoff => ?skipped,
    fun i hst hi hfree hbelow => ?free, fun i hst hfull hv => ?evicting⟩
  case report =>
    have hgap : mark = (s.touch g).gapMark g offset := by
      rw [Bool.eq_iff_iff, hmark, State.gapMark_iff, State.proofReach_lt_iff (by simpa using huniq)]
      simp [State.segState, State.entry]
    rw [s.reportByte_eq b hoff, State.openRecord_eq, ← hgap]
    cases hr : s.regionIndex g with
    | none => rw [State.touch_of_none hr]
    | some i => rw [State.touch_of_some hr]
  case hashing =>
    rw [State.byteRule_of_hashing offset b hst (Pool.holder_eq hc hg hfirst) hc]
    exact ⟨fun h => if_pos h, fun h => if_neg h⟩
  case skipped =>
    rw [State.byteRule_of_unseen offset b hst, if_neg (by omega)]
  case free =>
    rw [State.byteRule_of_unseen 0 b hst, if_pos rfl,
      State.allocate_of_free (Pool.freeSlot_eq_of_lowest hi hfree hbelow)]
    rfl
  case evicting =>
    rw [State.byteRule_of_unseen 0 b hst, if_pos rfl,
      State.allocate_of_full (Pool.freeSlot_eq_none hfull) hv, ← State.evict_time s i]
    rfl

end Sys2Proof.Machine
end

section
/-!
The head of the engine's order of candidates (R121 to R124): the gap queue, oldest entry first, then the live
VERIFY contexts. `State.Servable` names the test that R123 puts to a gap queue entry.
-/
namespace Sys2Proof.Machine

/-- The context of greatest age, the lowest-numbered among its equals, is the one that `oldest` gives, where a
number stands for one context. -/
theorem oldest_eq_some {now : Time} {l : List (Nat × Context)} {i : Nat} {c : Context}
    (hs : l.Pairwise (fun a b => a.1 < b.1)) (hmem : (i, c) ∈ l) (hnum : ∀ d, (i, d) ∈ l → d = c)
    (hmax : ∀ j d, (j, d) ∈ l → d.age now ≤ c.age now ∧ (d.age now = c.age now → i ≤ j)) :
    oldest now l = some (i, c) := by
  obtain ⟨hnone, hspec⟩ := oldest_spec now l hs
  cases he : oldest now l with
  | none => exact absurd hmem (by simp [hnone.1 he])
  | some e =>
    obtain ⟨j, d⟩ := e
    obtain ⟨hin, habove⟩ := hspec _ he
    obtain ⟨hge, hfirst⟩ := hmax j d hin
    obtain ⟨hle, hlow⟩ := habove _ hmem
    have hage : d.age now = c.age now := Nat.le_antisymm hge hle
    have hij : i = j := Nat.le_antisymm (hfirst hage) (hlow hage.symm)
    subst hij
    rw [hnum d hin]

namespace State

/-- A gap queue entry can be served: its port is free, and its segment is HASHING, or UNSEEN with a context
free (R123). -/
def Servable (s : State) (g : Nat) : Prop :=
  ((s.port (segmentPort g)).available = true ∧ (s.port (segmentPort g)).owner = .nobody) ∧
    (s.segState g = some .hashing ∨
      (s.segState g = some .unseen ∧ ∃ i, i < s.pool.slots.length ∧ s.pool.context i = none))

section gapQueue
variable {s : State} {g : Nat}

theorem gapCandidate_of_unseen (h : s.Servable g) (hst : s.segState g = some .unseen) :
    s.gapCandidate g = some (.fill g) := by
  obtain ⟨hport, hhashing | ⟨-, hfree⟩⟩ := h
  · rw [hst] at hhashing; cases hhashing
  · simp [gapCandidate, (s.portFree_iff _).2 hport, hst, Pool.freeSlot_isSome hfree]

theorem gapCandidate_of_hashing {i : Nat} {c : Context} (h : s.Servable g)
    (hst : s.segState g = some .hashing) (hholder : s.pool.holder g = some i)
    (hc : s.pool.context i = some c) (hrole : c.role = .verify) :
    s.gapCandidate g = some (.resumeFill i) := by
  simp [gapCandidate, (s.portFree_iff _).2 h.1, hst, hholder, hc, hrole]

/-- An entry that yields a candidate can be served. -/
theorem servable_of_gapCandidate {x : Candidacy} (h : s.gapCandidate g = some x) : s.Servable g := by
  unfold gapCandidate at h
  split at h
  case isFalse => cases h
  case isTrue hport =>
    refine ⟨(s.portFree_iff _).1 hport, ?_⟩
    split at h
    case h_1 hst => exact .inl hst
    case h_2 hst =>
      split at h
      case isTrue hfree => exact .inr ⟨hst, s.pool.freeSlot_iff.1 hfree⟩
      case isFalse => cases h
    all_goals cases h

theorem gapCandidate_eq_none (h : ¬ s.Servable g) : s.gapCandidate g = none :=
  Option.eq_none_iff_forall_ne_some.2 fun _ hx => h (servable_of_gapCandidate hx)

end gapQueue

/-- A HASHING segment's holder is a VERIFY context (R96). -/
theorem holder_verify_of_poolLaw {s : State} (hlaw : s.poolLaw) {g i : Nat} {c : Context}
    (hst : s.segState g = some .hashing) (hc : s.pool.context i = some c) (hg : c.seg = g) :
    s.pool.holder g = some i ∧ c.role = .verify := by
  obtain ⟨-, hone, hagree, -⟩ := hlaw
  refine ⟨Pool.holder_eq hc hg fun j d hj hd hdg => ?_, ?_⟩
  · exact Nat.ne_of_lt hj (hone j i d c hd hc (.inl (hdg.trans hg.symm)))
  · obtain ⟨-, hstate⟩ := hagree i c hc
    cases hrole : c.role with
    | verify => rfl
    | patrol => simp [hg, hst, hrole] at hstate

theorem liveCandidate_of_oldest {s : State} {i : Nat} {c : Context} (hc : s.pool.context i = some c)
    (hrole : c.role = .verify) (hport : s.portFree (segmentPort c.seg) = true)
    (hmax : ∀ j d, s.pool.context j = some d → d.role = .verify → s.portFree (segmentPort d.seg) = true →
      d.age s.time ≤ c.age s.time ∧ (d.age s.time = c.age s.time → i ≤ j)) :
    s.liveCandidate = some (.resumeFill i) := by
  rw [liveCandidate, oldest_eq_some (Pool.verifyContexts_sorted _ _)
    (Pool.mem_verifyContexts.2 ⟨hc, hrole, hport⟩)]
  case hnum =>
    intro d hd
    obtain ⟨hd, -⟩ := Pool.mem_verifyContexts.1 hd
    exact Option.some.inj (hd.symm.trans hc)
  case hmax =>
    intro j d hd
    obtain ⟨hd, hdrole, hdport⟩ := Pool.mem_verifyContexts.1 hd
    exact hmax j d hd hdrole hdport
  rfl

/-- The oldest gap queue entry that yields a candidate is the first candidate (R121, R123). -/
theorem candidate_of_gap {s : State} {older newer : List Nat} {g : Nat} {x : Candidacy}
    (hgaps : s.pool.gaps = older ++ g :: newer) (hpassed : ∀ h ∈ older, ¬ s.Servable h)
    (hg : s.gapCandidate g = some x) : s.candidate = x := by
  have hnone : older.findSome? s.gapCandidate = none :=
    List.findSome?_eq_none_iff.2 fun h hh => gapCandidate_eq_none (hpassed h hh)
  simp [candidate, hgaps, List.findSome?_append, hnone, hg]

/-- With no gap queue entry to serve, the live context is the first candidate (R121, R124). -/
theorem candidate_of_live {s : State} {x : Candidacy} (hgaps : ∀ g ∈ s.pool.gaps, ¬ s.Servable g)
    (hlive : s.liveCandidate = some x) : s.candidate = x := by
  have hnone : s.pool.gaps.findSome? s.gapCandidate = none :=
    List.findSome?_eq_none_iff.2 fun g hg => gapCandidate_eq_none (hgaps g hg)
  simp [candidate, hnone, hlive]

end State

/-- Settles O32: the judgment takes the first candidate, and each clause names which one that is: the oldest
servable entry of the gap queue, by the state of its segment, or the oldest live VERIFY context. -/
theorem gapQueueThenLiveContextsAreServed : Obligations.GapQueueThenLiveContextsAreServed := by
  intro s hlaw hrun hactive hidle onFreePort servable
  have hjudge := State.judge_eq (State.engineFree_of hrun hactive hidle)
  have hservable : ∀ g, servable g ↔ s.Servable g := by
    intro g
    rw [State.Servable, hlaw.1]
  simp only [hservable]
  refine ⟨fun older g newer hgaps hpassed hg => ⟨fun hst => ?unseen, fun i c hst hc hcg => ?hashing⟩,
    fun hgaps i c hc hrole hport hmax => ?live⟩
  case unseen =>
    rw [hjudge, State.candidate_of_gap hgaps hpassed (State.gapCandidate_of_unseen hg hst)]
  case hashing =>
    obtain ⟨hheld, hrole⟩ := State.holder_verify_of_poolLaw hlaw hst hc hcg
    rw [hjudge, State.candidate_of_gap hgaps hpassed
      (State.gapCandidate_of_hashing hg hst hheld hc hrole)]
  case live =>
    have hlive := State.liveCandidate_of_oldest hc hrole ((s.portFree_iff _).2 hport)
      fun j d hd hdrole hdport => hmax j d hd hdrole ((s.portFree_iff _).1 hdport)
    rw [hjudge, State.candidate_of_live hgaps hlive]

end Sys2Proof.Machine
end

section
/-!
The gate law of R140 and R143, as what every step keeps. It has two halves. `State.gatesInOrder` is what the gate
unit keeps at every moment inside an event; an event may leave a mask unproven or set a latch on its way, and
`State.settleGates` at its end restores the rest (`settleGates_gateLaw`). Operations that end in no settling keep
the law itself: most change nothing that it reads, which `State.gateView` says in one equation each.
-/
namespace Sys2Proof.Machine

namespace State

/-! ### The law's two halves -/

/-- Half of the gate law, kept also in the middle of an event: the lines and the timer follow the gates, and
outside RUN both gates are OFF. -/
def gatesInOrder (s : State) : Prop :=
  s.linesFollow ∧ s.timerFollows ∧
    (s.control.phase ≠ .run → s.gates.print.state = .off ∧ s.gates.scan.state = .off)

/-- The lines of R92's table above VERIFIED do not hold where every segment is VERIFIED. -/
theorem regionSummary_eq_verified_iff (s : State) (r : Region) :
    s.regionSummary r = .verified ↔ ∀ k, k < r.count → s.segState (r.segmentAt k) = some .verified := by
  have hall : s.allVerified r = true ↔ ∀ k, k < r.count → s.stateAt r k = some .verified := by
    simp [allVerified]
  have hnone : ∀ st, st ≠ .verified → s.allVerified r = true → s.someIn r st = false := by
    intro st hst hv
    have hother : ∀ k, k < r.count → ¬ s.stateAt r k = some st := fun k hk hk' =>
      hst (Option.some.inj (hk'.symm.trans (hall.1 hv k hk)))
    simpa [someIn] using hother
  refine Iff.trans ?_ hall
  constructor
  · intro h
    unfold regionSummary at h
    split at h
    · cases h
    · split at h
      · cases h
      · split at h
        case isTrue hv => exact hv
        case isFalse => split at h <;> cases h
  · intro hv
    simp [regionSummary, hnone .failed (by decide) hv, hnone .dirty (by decide) hv, hv]

theorem summary_eq_verified_iff (s : State) (i : Nat) :
    s.summary i = .verified ↔ ∃ r, s.regions[i]? = some r ∧ s.regionSummary r = .verified := by
  unfold summary
  cases s.regions[i]? <;> simp

theorem maskProven_iff (s : State) (mask : BitVec 16) :
    s.maskProven mask ↔ ∀ i, i < 16 → mask.getLsbD i = true → s.summary i = .verified := by
  refine forall_congr' fun i => forall_congr' fun _ => forall_congr' fun _ => ?_
  rw [summary_eq_verified_iff]
  exact exists_congr fun r => and_congr_right fun _ =>
    and_iff_left_of_imp (s.regionSummary_eq_verified_iff r).1

theorem gateGood_iff (s : State) (g : Gate) : s.gateGood g = true ↔
    s.control.phase = .run ∧ s.power.state = .active ∧ s.maskProven g.mask ∧ g.latch = false := by
  have hbit : ∀ i, (!g.mask.getLsbD i || decide (s.summary i = .verified)) = true ↔
      (g.mask.getLsbD i = true → s.summary i = .verified) := by
    intro i
    cases g.mask.getLsbD i <;> simp
  simp only [gateGood, gateCondition, maskProven_iff, Bool.and_eq_true, decide_eq_true_eq, List.all_eq_true,
    List.mem_range, hbit, Bool.not_eq_true', and_assoc]

theorem gateLaw_iff (s : State) : s.gateLaw ↔ s.gatesInOrder ∧
    (s.gates.print.state = .rising ∨ s.gates.print.state = .on → s.gateGood s.gates.print = true) ∧
    (s.gates.scan.state = .on → s.gateGood s.gates.scan = true) := by
  simp only [gateGood_iff]
  constructor
  · rintro ⟨hlines, htimer, hoff, hprint, hscan⟩
    refine ⟨⟨hlines, htimer, fun hrun => ⟨hoff hrun, ?_⟩⟩, hprint, hscan⟩
    exact htimer.2.resolve_right fun hon => hrun (hscan hon).1
  · rintro ⟨⟨hlines, htimer, hoff⟩, hprint, hscan⟩
    exact ⟨hlines, htimer, fun hrun => (hoff hrun).1, hprint, hscan⟩

theorem gateLaw.inOrder {s : State} (h : s.gateLaw) : s.gatesInOrder := (s.gateLaw_iff.1 h).1

/-- With both gates OFF, or with the print gate FALLING and the scan gate OFF, the first half is the whole. -/
theorem gatesInOrder.gateLaw_of_down {s : State} (h : s.gatesInOrder)
    (hprint : s.gates.print.state = .off ∨ s.gates.print.state = .falling)
    (hscan : s.gates.scan.state = .off) : s.gateLaw := by
  rw [gateLaw_iff, hscan]
  refine ⟨h, fun hup => ?_, fun hon => nomatch hon⟩
  rcases hprint with hp | hp <;> rw [hp] at hup <;> rcases hup with hup | hup <;> cases hup

/-- Outside RUN the first half is the whole. -/
theorem gatesInOrder.gateLaw_of_not_run {s : State} (h : s.gatesInOrder) (hrun : s.control.phase ≠ .run) :
    s.gateLaw := by
  obtain ⟨hprint, hscan⟩ := h.2.2 hrun
  exact h.gateLaw_of_down (.inl hprint) hscan

/-! ### What the law reads -/

/-- What the gate law reads of a state, the rest at its reset values. -/
def gateView (s : State) : State := { State.reset with
  control := { PhaseControl.afterReset with phase := s.control.phase }
  power := { PowerControl.afterReset with state := s.power.state }
  regions := s.regions
  segments := s.segments
  gates := { GateUnit.afterReset with print := s.gates.print, scan := s.gates.scan, timer := s.gates.timer }
  lines := { Lines.inReset with epwr := s.lines.epwr, earm := s.lines.earm, scnen := s.lines.scnen } }

theorem gateLaw.of_gateView {s t : State} (hs : s.gateLaw) (h : t.gateView = s.gateView) : t.gateLaw := by
  have hview : t.gateView.gateLaw := h ▸ (show s.gateView.gateLaw from hs)
  exact hview

theorem gatesInOrder.of_gateView {s t : State} (hs : s.gatesInOrder) (h : t.gateView = s.gateView) :
    t.gatesInOrder := by
  have hview : t.gateView.gatesInOrder := h ▸ (show s.gateView.gatesInOrder from hs)
  exact hview

end State
end Sys2Proof.Machine
end

section
/-!
The operations that change nothing the gate law reads, one equation of `State.gateView` each, in the order of the
model. A reply or a change of the channel's place is one more, by `rfl` where it stands.
-/
namespace Sys2Proof.Machine
namespace State

@[simp] theorem reachTime_gateView (s : State) (due : Time) : (s.reachTime due).gateView = s.gateView := rfl

theorem gateLaw.reachTime {s : State} (h : s.gateLaw) (due : Time) : (s.reachTime due).gateLaw :=
  h.of_gateView (reachTime_gateView ..)

@[simp] theorem tick_gateView (s : State) : s.tick.gateView = s.gateView := by
  unfold tick
  split <;> rfl

@[simp] theorem setPort_gateView (s : State) (p : Port) (q : PortState) :
    (s.setPort p q).gateView = s.gateView := by
  obtain ⟨_, _, h⟩ := s.setPort_frame p q
  rw [h]
  rfl

@[simp] theorem pushFault_gateView (s : State) (k : FaultKind) (r g a : Option Nat) (d : Byte) :
    (s.pushFault k r g a d).gateView = s.gateView := by
  obtain ⟨_, _, h⟩ := s.pushFault_frame k r g a d
  rw [h]
  rfl

@[simp] theorem reject_gateView (s : State) (a : Anchor) (r : RejectReason) (cls : Nat) :
    (s.reject a r cls).gateView = s.gateView := s.pushFault_gateView ..

@[simp] theorem putSettings_gateView (s : State) (t : Settings) :
    (s.putSettings t).gateView = s.gateView := rfl

@[simp] theorem confirmBoot_gateView (s : State) : s.confirmBoot.gateView = s.gateView := by
  obtain ⟨_, _, _, h⟩ := s.confirmBoot_frame
  rw [h]
  rfl

@[simp] theorem closeRead_gateView (s : State) : s.closeRead.gateView = s.gateView := by
  obtain ⟨_, _, h⟩ := s.closeRead_frame
  rw [h]
  rfl

@[simp] theorem endRead_gateView (s : State) : s.endRead.gateView = s.gateView := by
  obtain ⟨_, _, h⟩ := s.endRead_frame
  rw [h]
  rfl

@[simp] theorem startRead_gateView (s : State) (j : Job) (r : FetchRead) :
    (s.startRead j r).gateView = s.gateView := by
  obtain ⟨_, _, h⟩ := s.startRead_frame j r
  rw [h]
  rfl

theorem gateLaw.startRead {s : State} (h : s.gateLaw) (j : Job) (r : FetchRead) : (s.startRead j r).gateLaw :=
  h.of_gateView (startRead_gateView ..)

@[simp] theorem setCandidates_gateView (s : State) (l : List Candidate) :
    (s.setCandidates l).gateView = s.gateView := rfl

@[simp] theorem setSlot_gateView (s : State) (i : Nat) (c : Option Context) :
    (s.setSlot i c).gateView = s.gateView := rfl

@[simp] theorem appendGap_gateView (s : State) (g : Nat) : (s.appendGap g).gateView = s.gateView := by
  rw [appendGap_eq]
  rfl

@[simp] theorem openRecord_gateView (s : State) (g offset : Nat) :
    (s.openRecord g offset).gateView = s.gateView := by
  rw [openRecord_eq]
  rfl

@[simp] theorem judgeGap_gateView (s : State) : s.judgeGap.gateView = s.gateView := by
  unfold judgeGap
  split
  · rfl
  · split
    · exact appendGap_gateView ..
    · rfl

@[simp] theorem resume_gateView (s : State) (i : Nat) : (s.resume i).gateView = s.gateView := by
  unfold resume
  split
  · rfl
  · split <;> exact startRead_gateView ..

@[simp] theorem freePatrol_gateView (s : State) (i : Nat) : (s.freePatrol i).gateView = s.gateView := by
  unfold freePatrol
  split <;> rfl

@[simp] theorem startPatrol_gateView (s : State) (g : Nat) : (s.startPatrol g).gateView = s.gateView := by
  unfold startPatrol
  split
  · rfl
  · exact startRead_gateView ..

@[simp] theorem setTransaction_gateView (s : State) (t : Transaction) :
    (s.setTransaction t).gateView = s.gateView := rfl

@[simp] theorem openTransaction_gateView (s : State) (p : Port) :
    (s.openTransaction p).gateView = s.gateView := rfl

@[simp] theorem forward_gateView (s : State) (t : Transaction) : (s.forward t).gateView = s.gateView :=
  s.setPort_gateView ..

@[simp] theorem deliver_gateView (s : State) (b : Byte) : (s.deliver b).gateView = s.gateView := rfl

@[simp] theorem countByte_gateView (s : State) (t : Transaction) :
    (s.countByte t).gateView = s.gateView := rfl

@[simp] theorem endAdvance_gateView (s : State) (st : Status) :
    (s.endAdvance st).gateView = s.gateView := rfl

@[simp] theorem abortFill_gateView (s : State) (p : Port) : (s.abortFill p).gateView = s.gateView := by
  unfold abortFill
  split
  · rfl
  · split
    · split <;> simp
    · rfl

@[simp] theorem endForward_gateView (s : State) (t : Transaction) :
    (s.endForward t).gateView = s.gateView := by
  unfold endForward
  dsimp only
  split
  case h_3 => split <;> simp
  all_goals exact setPort_gateView ..

@[simp] theorem endTransaction_gateView (s : State) (p : Port) :
    (s.endTransaction p).gateView = s.gateView := by
  unfold endTransaction
  split
  case h_1 => rfl
  case h_2 =>
    split
    case isFalse => rfl
    case isTrue =>
      dsimp only
      split
      case h_1 => exact endForward_gateView ..
      case h_2 => split <;> rfl
      all_goals rfl

@[simp] theorem closeWakeRead_gateView (s : State) : s.closeWakeRead.gateView = s.gateView := by
  unfold closeWakeRead
  split
  · rfl
  · exact setPort_gateView ..

@[simp] theorem endWakeJob_gateView (s : State) : s.endWakeJob.gateView = s.gateView :=
  s.closeWakeRead_gateView

end State
end Sys2Proof.Machine
end

section
/-!
Both gates act at the end of an event (R138, R140, R142): from gates in order, `State.settleGates` makes the gate
law. The print gate stands in RISING or ON afterward only where its condition holds and its latch is clear,
whatever it did; the scan gate by its definition.
-/
namespace Sys2Proof.Machine
namespace State
variable {s : State}

theorem setPrint_gatesInOrder (h : s.gatesInOrder) {st : GateState} {timer : Option SequenceTimer}
    (htimer : timer.isSome = true ↔ st = .rising ∨ st = .falling)
    (hrun : s.control.phase ≠ .run → st = .off) : (s.setPrint st timer).gatesInOrder := by
  obtain ⟨⟨-, -, hscnen⟩, ⟨-, hscan⟩, hoff⟩ := h
  exact ⟨⟨rfl, rfl, hscnen⟩, ⟨htimer, hscan⟩, fun hp => ⟨hrun hp, (hoff hp).2⟩⟩

theorem setScan_gatesInOrder (h : s.gatesInOrder) {st : GateState} (hst : st = .off ∨ st = .on)
    (hrun : s.control.phase ≠ .run → st = .off) : (s.setScan st).gatesInOrder := by
  obtain ⟨⟨hepwr, hearm, -⟩, ⟨htimer, -⟩, hoff⟩ := h
  exact ⟨⟨hepwr, hearm, rfl⟩, ⟨htimer, hst⟩, fun hp => ⟨(hoff hp).1, hrun hp⟩⟩

/-- The print gate's way up: RISING with the timer, or ON without, at an interval of 0 (R140, R142). -/
theorem printRising_cases (s : State) :
    s.printRising.gateView = (s.setPrint .on none).gateView ∨
      s.printRising.gateView = (s.setPrint .rising (some s.sequenceStart)).gateView := by
  unfold printRising
  split
  · exact .inl (confirmBoot_gateView _)
  · exact .inr rfl

theorem printRising_gatesInOrder (h : s.gatesInOrder) (hrun : s.control.phase = .run) :
    s.printRising.gatesInOrder := by
  rcases s.printRising_cases with hv | hv
  · exact (setPrint_gatesInOrder h (by decide) fun hp => absurd hrun hp).of_gateView hv
  · exact (setPrint_gatesInOrder h (by simp) fun hp => absurd hrun hp).of_gateView hv

/-- The print gate's way down: FALLING with the timer, or OFF without, at an interval of 0 (R140, R142). -/
theorem printFalling_spec (h : s.gatesInOrder) (hrun : s.control.phase = .run) :
    s.printFalling.gatesInOrder ∧
      (s.printFalling.gates.print.state = .off ∨ s.printFalling.gates.print.state = .falling) := by
  unfold printFalling
  split
  · exact ⟨setPrint_gatesInOrder h (by decide) fun _ => rfl, .inl rfl⟩
  · exact ⟨setPrint_gatesInOrder h (by simp) fun hp => absurd hrun hp, .inr rfl⟩

/-- The print gate by R140's table. -/
theorem settlePrint_spec (h : s.gatesInOrder) : s.settlePrint.gatesInOrder ∧
    (s.settlePrint.gates.print.state = .rising ∨ s.settlePrint.gates.print.state = .on →
      s.gateGood s.gates.print = true) := by
  have rises (hgood : s.gateGood s.gates.print = true) : s.printRising.gatesInOrder :=
    printRising_gatesInOrder h (s.gateGood_iff _ |>.1 hgood).1
  have runs (hup : s.gates.print.state ≠ .off) : s.control.phase = .run :=
    Decidable.byContradiction fun hrun => hup (h.2.2 hrun).1
  have falls (hup : s.gates.print.state ≠ .off) : s.printFalling.gatesInOrder ∧
      (s.printFalling.gates.print.state = .rising ∨ s.printFalling.gates.print.state = .on →
        s.gateGood s.gates.print = true) := by
    obtain ⟨horder, hdown⟩ := printFalling_spec h (runs hup)
    refine ⟨horder, fun hrisen => ?_⟩
    rcases hdown with hd | hd <;> simp [hd] at hrisen
  unfold settlePrint
  split
  case h_1 hgood => exact ⟨rises hgood, fun _ => hgood⟩
  case h_2 hgood => exact ⟨rises hgood, fun _ => hgood⟩
  case h_3 hst _ => exact falls (by simp [hst])
  case h_4 hst _ => exact falls (by simp [hst])
  case h_5 hst _ => exact ⟨h, fun hup => by simp [hst] at hup⟩
  case h_6 hst _ => exact ⟨h, fun hup => by simp [hst] at hup⟩
  case h_7 hgood => exact ⟨h, fun _ => hgood⟩
  case h_8 hgood => exact ⟨h, fun _ => hgood⟩

/-- The print gate's move leaves its own condition and latch as they were. -/
theorem settlePrint_gateGood (s : State) :
    s.settlePrint.gateGood s.settlePrint.gates.print = s.gateGood s.gates.print := by
  obtain ⟨_, _, _, _, _, _, _, _, h⟩ := s.settlePrint_frame
  rw [h]
  rfl

theorem settleScan_gateLaw (h : s.gatesInOrder)
    (hprint : s.gates.print.state = .rising ∨ s.gates.print.state = .on →
      s.gateGood s.gates.print = true) : s.settleScan.gateLaw := by
  unfold settleScan
  split
  case isTrue hgood =>
    have hrun : s.control.phase = .run := (s.gateGood_iff _ |>.1 hgood).1
    exact (gateLaw_iff _).2 ⟨setScan_gatesInOrder h (.inr rfl) fun hp => absurd hrun hp, hprint, fun _ => hgood⟩
  case isFalse =>
    exact (gateLaw_iff _).2 ⟨setScan_gatesInOrder h (.inl rfl) fun _ => rfl, hprint, fun hon => nomatch hon⟩

/-- Where an event leaves the gates in order, their settling makes the gate law (R140, R143). -/
theorem settleGates_gateLaw (h : s.gatesInOrder) : s.settleGates.gateLaw := by
  obtain ⟨horder, hprint⟩ := settlePrint_spec h
  exact settleScan_gateLaw horder fun hup => s.settlePrint_gateGood.trans (hprint hup)

end State
end Sys2Proof.Machine
end

section
/-!
The engine's judgment keeps the gate law. The one candidate whose read changes a segment's state is a fill read that
starts a proof, and it starts on an UNSEEN segment (R123, R125), so no VERIFIED segment is lost to a mask.
-/
namespace Sys2Proof.Machine
namespace State
variable {s : State}

theorem segState_setSegState_ne {g k : Nat} (h : k ≠ g) (st : SegState) :
    (s.setSegState g st).segState k = s.segState k := by
  have hkeep : ((fun e : SegEntry => e.seg == k) ∘ fun e => if e.seg = g then { e with state := st } else e) =
      fun e => e.seg == k := by
    funext e
    by_cases he : e.seg = g <;> simp [he]
  simp only [segState, entry, setSegState, List.find?_map, hkeep]
  cases hf : s.segments.find? (fun e => e.seg == k) with
  | none => rfl
  | some e =>
    have he : e.seg = k := by simpa using List.find?_some hf
    simp [he, h]

/-- A change that costs no segment its VERIFIED state leaves a proven mask proven. -/
theorem maskProven.mono {t : State} {mask : BitVec 16} (h : s.maskProven mask) (hregions : t.regions = s.regions)
    (hkeep : ∀ g, s.segState g = some .verified → t.segState g = some .verified) : t.maskProven mask := by
  intro i hi hbit
  obtain ⟨r, hr, -, hall⟩ := h i hi hbit
  have hall' : ∀ k, k < r.count → t.segState (r.segmentAt k) = some .verified := fun k hk =>
    hkeep _ (hall k hk)
  exact ⟨r, hregions ▸ hr, (t.regionSummary_eq_verified_iff r).2 hall', hall'⟩

theorem gateLaw.setSegState (h : s.gateLaw) {g : Nat} {old : SegState} (hg : s.segState g = some old)
    (hold : old ≠ .verified) (st : SegState) : (s.setSegState g st).gateLaw := by
  have hkeep : ∀ k, s.segState k = some .verified → (s.setSegState g st).segState k = some .verified := by
    intro k hk
    rw [segState_setSegState_ne ?_, hk]
    rintro rfl
    exact hold (Option.some.inj (hg.symm.trans hk))
  obtain ⟨hlines, htimer, hoff, hprint, hscan⟩ := h
  refine ⟨hlines, htimer, hoff, fun hup => ?_, fun hon => ?_⟩
  · obtain ⟨hrun, hactive, hproven, hlatch⟩ := hprint hup
    exact ⟨hrun, hactive, hproven.mono rfl hkeep, hlatch⟩
  · obtain ⟨hrun, hactive, hproven, hlatch⟩ := hscan hon
    exact ⟨hrun, hactive, hproven.mono rfl hkeep, hlatch⟩

theorem unseen_of_gapCandidate_fill {g k : Nat} (h : s.gapCandidate k = some (.fill g)) :
    s.segState g = some .unseen := by
  unfold gapCandidate at h
  split at h
  case isFalse => cases h
  case isTrue =>
    split at h
    case h_1 =>
      split at h
      · split at h <;> cases h
      · cases h
    case h_2 hst =>
      split at h
      case isTrue => cases h; exact hst
      case isFalse => cases h
    all_goals cases h

theorem unseen_of_sweepCandidate_fill {g : Nat} (h : s.sweepCandidate = some (.fill g)) :
    s.segState g = some .unseen := by
  unfold sweepCandidate at h
  split at h
  case isFalse => cases h
  case isTrue =>
    obtain ⟨k, hfound, hk⟩ := Option.map_eq_some_iff.1 h
    obtain ⟨e, -, he⟩ := List.exists_of_findSome?_eq_some hfound
    split at he
    case isFalse => cases he
    case isTrue =>
      cases hk
      simpa using List.find?_some he

theorem liveCandidate_ne_fill (s : State) (g : Nat) : s.liveCandidate ≠ some (.fill g) := by
  simp [liveCandidate]

theorem patrolResumption_ne_fill (s : State) (g : Nat) : s.patrolResumption ≠ some (.fill g) := by
  unfold patrolResumption
  split
  · simp
  · split
    · simp
    · split
      · split <;> simp
      · simp

theorem patrolStart_ne_fill (s : State) (g : Nat) : s.patrolStart ≠ some (.fill g) := by
  unfold patrolStart
  split
  · split
    · split <;> simp
    · simp
  · simp

/-- The first candidate is nothing, or comes of one of the five steps of R121. -/
theorem candidate_cases (s : State) : s.candidate = .nothing ∨
    s.pool.gaps.findSome? s.gapCandidate = some s.candidate ∨ s.liveCandidate = some s.candidate ∨
    s.sweepCandidate = some s.candidate ∨ s.patrolResumption = some s.candidate ∨
    s.patrolStart = some s.candidate := by
  unfold candidate
  split
  case h_1 hgap => exact .inr (.inl hgap)
  case h_2 =>
    split
    case h_1 hlive => exact .inr (.inr (.inl hlive))
    case h_2 =>
      split
      case h_1 hsweep => exact .inr (.inr (.inr (.inl hsweep)))
      case h_2 =>
        split
        case h_1 hpatrol => exact .inr (.inr (.inr (.inr (.inl hpatrol))))
        case h_2 =>
          split
          case h_1 hstart => exact .inr (.inr (.inr (.inr (.inr hstart))))
          case h_2 => exact .inl rfl

/-- A fill read that starts a proof starts it on an UNSEEN segment (R123, R125, R127). -/
theorem unseen_of_candidate_fill {g : Nat} (h : s.candidate = .fill g) : s.segState g = some .unseen := by
  rcases s.candidate_cases with hc | hc | hc | hc | hc | hc <;> rw [h] at hc
  · cases hc
  · obtain ⟨k, -, hk⟩ := List.exists_of_findSome?_eq_some hc
    exact unseen_of_gapCandidate_fill hk
  · exact absurd hc (s.liveCandidate_ne_fill g)
  · exact unseen_of_sweepCandidate_fill hc
  · exact absurd hc (s.patrolResumption_ne_fill g)
  · exact absurd hc (s.patrolStart_ne_fill g)

theorem gateLaw.startFill (h : s.gateLaw) {g : Nat} (hg : s.segState g = some .unseen) :
    (s.startFill g).gateLaw := by
  unfold State.startFill
  split
  · exact h
  · refine gateLaw.startRead ?_ _ _
    exact h.setSegState hg (by decide) .hashing

theorem gateLaw.judgeWith (n : Nat) (h : s.gateLaw) : (State.judgeWith n s).gateLaw := by
  induction n generalizing s with
  | zero => exact h
  | succ n ih =>
    unfold State.judgeWith
    split
    case isFalse => exact h
    case isTrue =>
      split
      case h_1 hc => exact h.startFill (unseen_of_candidate_fill hc)
      case h_2 => exact h.of_gateView (resume_gateView ..)
      case h_3 => exact h.of_gateView (resume_gateView ..)
      case h_4 => exact ih (h.of_gateView (freePatrol_gateView ..))
      case h_5 => exact h.of_gateView (startPatrol_gateView ..)
      case h_6 => exact h

theorem gateLaw.judge (h : s.gateLaw) : s.judge.gateLaw := h.judgeWith 2

theorem gateLaw.judgeIfConfirmed (h : s.gateLaw) (before : State) : (s.judgeIfConfirmed before).gateLaw := by
  unfold State.judgeIfConfirmed
  split
  · exact h.judge
  · exact h

end State
end Sys2Proof.Machine
end

section
/-!
What an event may do before its gates settle: bytes reach the pool, verdicts and DIRTY marks change the segment
table, trips set latches, the power state moves. Each keeps the gates in order. Entry to HALTED and to RECOVERY
takes both gates down with everything else, and so makes the gate law from any state.
-/
namespace Sys2Proof.Machine
namespace State
variable {s : State}

theorem gateLaw_of_gatesOff (hprint : s.gates.print.state = .off) (hscan : s.gates.scan.state = .off)
    (htimer : s.gates.timer = none) (hepwr : s.lines.epwr = false) (hearm : s.lines.earm = false)
    (hscnen : s.lines.scnen = false) : s.gateLaw := by
  refine gatesInOrder.gateLaw_of_down ⟨⟨?_, ?_, ?_⟩, ⟨?_, .inl hscan⟩, fun _ => ⟨hprint, hscan⟩⟩
    (.inl hprint) hscan
  · rw [hepwr, hprint]; rfl
  · rw [hearm, hprint]; rfl
  · rw [hscnen, hscan]; rfl
  · simp [htimer, hprint]

theorem enterHalted_gateLaw (s : State) : s.enterHalted.gateLaw := by
  obtain ⟨_, _, h⟩ := s.enterHalted_frame
  rw [h]
  exact gateLaw_of_gatesOff rfl rfl rfl rfl rfl rfl

theorem enterRecovery_gateLaw (s : State) : s.enterRecovery.gateLaw := by
  obtain ⟨_, _, h⟩ := s.enterRecovery_frame
  rw [h]
  exact gateLaw_of_gatesOff rfl rfl rfl rfl rfl rfl

theorem afterReset_gateLaw (pending : List Instr) (fuses : Fuses) (upstream0 upstream1 : Bool) (drawn : Nat) :
    (State.afterReset pending fuses upstream0 upstream1 drawn).gateLaw :=
  gateLaw_of_gatesOff rfl rfl rfl rfl rfl rfl

theorem gatesInOrder.setSegState (h : s.gatesInOrder) (g : Nat) (st : SegState) :
    (s.setSegState g st).gatesInOrder := h

theorem gatesInOrder.latchGates (h : s.gatesInOrder) (print scan : Bool) :
    (s.latchGates print scan).gatesInOrder := h

theorem gatesInOrder.raise (h : s.gatesInOrder) (t : Trigger) : (s.raise t).gatesInOrder := h

theorem gatesInOrder.tripRegion (h : s.gatesInOrder) (i : Nat) : (s.tripRegion i).gatesInOrder := h

theorem gatesInOrder.clearLatches (h : s.gatesInOrder) (print scan : Bool) :
    (s.clearLatches print scan).gatesInOrder := h

theorem gatesInOrder.becomeActive (h : s.gatesInOrder) : s.becomeActive.gatesInOrder := h

theorem gatesInOrder.reportWrite (h : s.gatesInOrder) (run : SegmentRun) :
    (s.reportWrite run).gatesInOrder := h

theorem gatesInOrder.pushFault (h : s.gatesInOrder) (k : FaultKind) (r g a : Option Nat) (d : Byte) :
    (s.pushFault k r g a d).gatesInOrder := h.of_gateView (pushFault_gateView ..)

theorem gatesInOrder.tripDenied (h : s.gatesInOrder) (g : Nat) : (s.tripDenied g).gatesInOrder := by
  unfold State.tripDenied
  split
  · split
    · exact h.tripRegion _
    · exact h
  · exact h

theorem gatesInOrder.extend (h : s.gatesInOrder) (i : Nat) (b : Byte) (st : Stream) :
    (s.extend i b st).gatesInOrder := by
  rcases s.extend_cases i b st with he | ⟨c, -, ⟨-, he⟩ | ⟨-, e, -, he | he⟩⟩ <;> rw [he]
  · exact h
  · exact h
  · obtain ⟨_, _, _, _, _, _, _, hv⟩ := s.writeVerdict_frame i _ e st
    rw [hv]
    exact h
  · exact s.enterHalted_gateLaw.inOrder

theorem gatesInOrder.evict (h : s.gatesInOrder) (i : Nat) : (s.evict i).gatesInOrder := by
  obtain ⟨_, _, _, _, _, _, he⟩ := s.evict_frame i
  rw [he]
  exact h

theorem gatesInOrder.allocate (h : s.gatesInOrder) (g : Nat) (b : Byte) : (s.allocate g b).gatesInOrder := by
  unfold State.allocate
  split
  · exact h
  · refine gatesInOrder.extend (gatesInOrder.setSegState (of_gateView ?_ (setSlot_gateView ..)) g .hashing) _ b _
    split
    · exact h
    · exact h.evict _

theorem gatesInOrder.byteRule (h : s.gatesInOrder) (g offset : Nat) (b : Byte) :
    (s.byteRule g offset b).gatesInOrder := by
  unfold State.byteRule
  split
  case h_1 =>
    split
    · exact h.allocate g b
    · exact h
  case h_2 =>
    split
    · exact h
    · split
      · exact h
      · split
        · exact h.extend _ b _
        · exact h
  all_goals exact h

theorem gatesInOrder.touch (h : s.gatesInOrder) (g : Nat) : (s.touch g).gatesInOrder := by
  unfold State.touch
  split <;> exact h

theorem gatesInOrder.reportByte (h : s.gatesInOrder) (flat : Nat) (b : Byte) :
    (s.reportByte flat b).gatesInOrder :=
  ((h.touch _).of_gateView (openRecord_gateView ..)).byteRule ..

/-- In every power state but ACTIVE no gate is up, so WAKING may start (R143, R187). -/
theorem gateLaw.startWaking (h : s.gateLaw) (hpower : s.power.state ≠ .active) : s.startWaking.gateLaw := by
  obtain ⟨hlines, htimer, hoff, hup, hon⟩ := h
  exact ⟨hlines, htimer, hoff, fun hu => absurd (hup hu).2.1 hpower, fun ho => absurd (hon ho).2.1 hpower⟩

/-- Doze completes with both gates OFF alone (R186). -/
theorem gateLaw.completeDoze (h : s.gateLaw) : s.completeDoze.gateLaw := by
  unfold State.completeDoze
  split
  case isTrue hc => exact gatesInOrder.gateLaw_of_down h.inOrder (.inl hc.2.1) hc.2.2
  case isFalse => exact h

theorem gatesInOrder.enterDoze (h : s.gatesInOrder) : s.enterDoze.gateLaw := by
  have hread : s.endRead.gatesInOrder := h.of_gateView s.endRead_gateView
  refine gateLaw.completeDoze (settleGates_gateLaw ?_)
  exact hread

end State
end Sys2Proof.Machine
end

section
/-!
The commands of authentication keep the gate law (chapter 4). `nextHas` says that the next state of an outcome,
where it has one, has a property; each command's lemma below and in the sections after it is of that form.
-/
namespace Sys2Proof.Machine

/-- The next state of an outcome, where it has one, has a property. -/
def nextHas (P : State → Prop) (o : Host.Outcome State Fault Refusal) : Prop := ∀ t, o = .next t → P t

@[simp] theorem nextHas_next {P : State → Prop} {s : State} : nextHas P (.next s) ↔ P s :=
  ⟨fun h => h s rfl, fun h t ht => by cases ht; exact h⟩

theorem nextHas_whenWellFormed {P : State → Prop} {s : State} (h : P s) (i : Instr) :
    nextHas P (whenWellFormed i s) := by
  unfold whenWellFormed
  split
  · exact nextHas_next.2 h
  · exact fun t ht => nomatch ht

variable {s : State}

theorem execReset_gateLaw (s : State) : nextHas State.gateLaw (execReset s) :=
  nextHas_next.2 (State.afterReset_gateLaw ..)

theorem execResetEnd_gateLaw (h : s.gateLaw) : nextHas State.gateLaw (execResetEnd s) := by
  unfold execResetEnd
  split
  case isFalse => exact nextHas_next.2 h
  case isTrue =>
    split
    · exact nextHas_next.2 (State.enterHalted_gateLaw _)
    · exact nextHas_next.2 (State.enterRecovery_gateLaw _)
    · refine nextHas_next.2 (State.gateLaw.startRead ?_ _ _)
      exact h

theorem execIdentityReadEnd_gateLaw (h : s.gateLaw) (b0 b1 b2 : Byte) :
    nextHas State.gateLaw (execIdentityReadEnd b0 b1 b2 s) := by
  have hread : s.closeRead.gateLaw := h.of_gateView s.closeRead_gateView
  unfold execIdentityReadEnd
  split
  · refine nextHas_next.2 (State.gateLaw.startRead ?_ _ _)
    exact hread
  · refine nextHas_next.2 (State.gateLaw.startRead ?_ _ _)
    exact hread
  · exact nextHas_next.2 h

namespace State

theorem gateLaw.evaluate (h : s.gateLaw) (l : List Candidate) : (s.evaluate l).gateLaw := by
  induction l generalizing s with
  | nil => exact enterRecovery_gateLaw _
  | cons c rest ih =>
    cases hr : headerReject s.fuses c.header with
    | some reason =>
      rw [evaluate_reject hr]
      exact ih (h.of_gateView (reject_gateView ..))
    | none =>
      rw [evaluate_pass hr]
      exact gateLaw.startRead (h.of_gateView (setCandidates_gateView ..)) ..

theorem takeHeader_gateView (s : State) (a : Anchor) (bytes : List Byte) :
    (s.takeHeader a bytes).gateView = s.gateView := by
  unfold takeHeader
  split
  · rfl
  · exact reject_gateView ..

theorem gateLaw.headerEnd (h : s.gateLaw) (bytes : List Byte) : (s.headerEnd bytes).gateLaw := by
  have htaken (a : Anchor) : (s.closeRead.takeHeader a bytes).gateLaw :=
    h.of_gateView ((takeHeader_gateView ..).trans s.closeRead_gateView)
  unfold State.headerEnd
  split
  · exact (htaken .primary).startRead ..
  · refine gateLaw.evaluate ?_ _
    exact htaken .fallback
  · exact h

/-- A commit makes the phase RUN and gives new masks; states, timer and gate lines stay. -/
theorem gatesInOrder.commit (h : s.gatesInOrder) (c : Candidate) (copy : CandidateCopy) (d : List Int) :
    (s.commit c copy d).gatesInOrder :=
  ⟨h.1, h.2.1, fun hrun => absurd rfl hrun⟩

theorem gatesInOrder.tamperAtEntry (h : s.gatesInOrder) : s.tamperAtEntry.gatesInOrder := by
  unfold State.tamperAtEntry
  split
  · exact (h.pushFault ..).raise _
  · exact h

theorem gatesInOrder.accept (h : s.gatesInOrder) (c : Candidate) (copy : CandidateCopy) (d : List Int) :
    (s.accept c copy d).gateLaw :=
  (settleGates_gateLaw (h.commit c copy d).tamperAtEntry).judge

theorem gateLaw.judgeBody (h : s.gateLaw) (c : Candidate) (rest : List Candidate) (bytes : List Byte)
    (copy : CandidateCopy) : (s.judgeBody c rest bytes copy).gateLaw := by
  have hrejected (reason : RejectReason) (cls : Nat) : ((s.reject c.anchor reason cls).evaluate rest).gateLaw :=
    (h.of_gateView (reject_gateView ..)).evaluate rest
  unfold State.judgeBody
  dsimp only
  split
  · exact hrejected ..
  · split
    · exact hrejected ..
    · split
      · exact hrejected ..
      · exact h.inOrder.accept ..

theorem gateLaw.bodyEnd (h : s.gateLaw) (bytes : List Byte) : (s.bodyEnd bytes).gateLaw := by
  unfold State.bodyEnd
  split
  · split
    · exact gateLaw.judgeBody (h.of_gateView (by simp)) ..
    · exact h
  · exact h

end State

end Sys2Proof.Machine
end

section
/-!
The commands of the upstream port keep the gate law: each judgment that sets a latch, marks a segment or reports a
byte ends in the gates' settling (chapter 1).
-/
namespace Sys2Proof.Machine
variable {s : State}

namespace State

theorem gateLaw.selectPort (h : s.gateLaw) (p : Port) : (s.selectPort p).gateLaw := by
  have hawake : (if s.power.state = .doze then s.startWaking else s).gateLaw := by
    split
    case isTrue hdoze => exact h.startWaking (by simp [hdoze])
    case isFalse => exact h
  refine gateLaw.judge (hawake.of_gateView ?_)
  split <;> simp

theorem gateLaw.deselectPort (h : s.gateLaw) (p : Port) : (s.deselectPort p).gateLaw :=
  gateLaw.judge (h.of_gateView (by simp))

theorem gateLaw.blockCommand (h : s.gateLaw) (t : Transaction) (b : Byte) : (s.blockCommand t b).gateLaw :=
  settleGates_gateLaw (gatesInOrder.raise (h.inOrder.of_gateView (by simp)) _)

theorem gateLaw.denyWrite (h : s.gateLaw) (t : Transaction) (b : Byte) (g : Nat) :
    (s.denyWrite t b g).gateLaw :=
  settleGates_gateLaw (((h.inOrder.of_gateView (by simp)).tripDenied g).raise _)

theorem gateLaw.judgeWrite (h : s.gateLaw) (t : Transaction) (e : ClassEntry) (b : Byte) :
    (s.judgeWrite t e b).gateLaw := by
  have hforward : (s.forward t).gateLaw := h.of_gateView (forward_gateView ..)
  unfold State.judgeWrite
  dsimp only
  split
  · exact h.denyWrite ..
  · split
    · exact (settleGates_gateLaw (hforward.inOrder.reportWrite _)).judge
    · exact hforward

theorem gateLaw.disposeListed (h : s.gateLaw) (t : Transaction) (e : ClassEntry) (b : Byte) :
    (s.disposeListed t e b).gateLaw := by
  have hwrite : (if t.addressLength = 0 then s.judgeWrite t e b
      else s.setTransaction { t with disposition := .pending }).gateLaw := by
    split
    · exact h.judgeWrite ..
    · exact h.of_gateView rfl
  unfold State.disposeListed
  split
  case h_5 => exact h.blockCommand ..
  case h_6 => exact hwrite
  case h_7 => exact hwrite
  all_goals exact h.of_gateView (forward_gateView ..)

theorem gateLaw.takeCommand (h : s.gateLaw) (t : Transaction) (b : Byte) : (s.takeCommand t b).gateLaw := by
  unfold State.takeCommand
  dsimp only
  split
  · exact h.of_gateView rfl
  · split
    · split
      · exact h.of_gateView rfl
      · split
        · exact h.of_gateView (forward_gateView ..)
        · exact h.blockCommand ..
    · split
      · exact h.of_gateView rfl
      · exact h.disposeListed ..

theorem gateLaw.takeAddress (h : s.gateLaw) (t : Transaction) (bytes : List Byte) :
    (s.takeAddress t bytes).gateLaw := by
  unfold State.takeAddress
  dsimp only
  split
  · exact h.judgeWrite ..
  · exact h.of_gateView rfl

theorem gateLaw.deliverRead (h : s.gateLaw) (t : Transaction) (b : Byte) : (s.deliverRead t b).gateLaw := by
  unfold State.deliverRead
  dsimp only
  split
  · exact (settleGates_gateLaw (gatesInOrder.reportByte (h.inOrder.of_gateView (by simp)) _ b)).judge
  · exact h.of_gateView (by simp)

end State

theorem execUpstreamCsAssert_gateLaw (h : s.gateLaw) (p : Port) :
    nextHas State.gateLaw (execUpstreamCsAssert p s) := by
  have hlevel (q : PortState) : (s.setPort p q).gateLaw := h.of_gateView (State.setPort_gateView ..)
  unfold execUpstreamCsAssert
  split
  · exact nextHas_next.2 h
  · refine nextHas_next.2 ?_
    split
    · exact (hlevel _).selectPort p
    · exact hlevel _

theorem execUpstreamCsDeassert_gateLaw (h : s.gateLaw) (p : Port) :
    nextHas State.gateLaw (execUpstreamCsDeassert p s) := by
  have hlevel (q : PortState) : (s.setPort p q).gateLaw := h.of_gateView (State.setPort_gateView ..)
  unfold execUpstreamCsDeassert
  split
  · refine nextHas_next.2 ?_
    split
    · exact (hlevel _).deselectPort p
    · exact hlevel _
  · exact nextHas_next.2 h

theorem execCommandByte_gateLaw (h : s.gateLaw) (b : Byte) : nextHas State.gateLaw (execCommandByte b s) := by
  unfold execCommandByte
  split
  · exact nextHas_next.2 h
  · refine nextHas_next.2 ?_
    split
    · exact h.takeCommand ..
    · exact h

theorem execAddressComplete_gateLaw (h : s.gateLaw) (bytes : List Byte) :
    nextHas State.gateLaw (execAddressComplete bytes s) := by
  refine nextHas_whenWellFormed ?_ _
  split
  · exact h
  · split
    · exact h.takeAddress ..
    · exact h

theorem execReadDataByte_gateLaw (h : s.gateLaw) (b : Byte) :
    nextHas State.gateLaw (execReadDataByte b s) := by
  unfold execReadDataByte
  split
  · exact nextHas_next.2 h
  · split
    · split
      case h_5 =>
        refine nextHas_next.2 ?_
        split
        · exact h.deliverRead ..
        · exact h.of_gateView rfl
      all_goals exact nextHas_next.2 (h.of_gateView rfl)
    · split
      · exact nextHas_next.2 (h.of_gateView rfl)
      · exact nextHas_next.2 h

end Sys2Proof.Machine
end

section
/-!
The requests and the ADVANCE operation keep the gate law (chapter 10, 2.6).
-/
namespace Sys2Proof.Machine
variable {s : State}

namespace State

/-- What a taken request does decides; every other end of a request is a reply at most (R174). -/
theorem gateLaw.request (h : s.gateLaw) (code tag : Byte) (n : Nat) {f : State → State}
    (hf : ∀ u : State, u.gateLaw → (f u).gateLaw) : (s.request code tag n f).gateLaw := by
  rcases s.request_cases code tag n f with hr | hr | ⟨st, hr⟩ | hr <;> rw [hr]
  · exact h
  · exact h.of_gateView rfl
  · exact h.of_gateView rfl
  · exact hf _ (h.of_gateView rfl)

theorem gateLaw.takeVerdicts (h : s.gateLaw) (tag mask0 mask1 format : Byte) :
    (s.takeVerdicts tag mask0 mask1 format).gateLaw := by
  unfold State.takeVerdicts
  split
  · exact h.of_gateView rfl
  · split <;> exact h.of_gateView rfl

theorem gateLaw.takeFaultRead (h : s.gateLaw) (tag depth : Byte) : (s.takeFaultRead tag depth).gateLaw := by
  unfold State.takeFaultRead
  split <;> exact h.of_gateView rfl

theorem gateLaw.takeFaultAck (h : s.gateLaw) (tag : Byte) : (s.takeFaultAck tag).gateLaw := by
  unfold State.takeFaultAck
  split <;> exact h.of_gateView rfl

theorem gateLaw.takeRearm (h : s.gateLaw) (tag gates : Byte) : (s.takeRearm tag gates).gateLaw := by
  unfold State.takeRearm
  split
  · exact ((settleGates_gateLaw (h.inOrder.clearLatches ..)).judgeIfConfirmed s).of_gateView rfl
  · exact h.of_gateView rfl

theorem gateLaw.takeForceOff (h : s.gateLaw) (tag gates : Byte) : (s.takeForceOff tag gates).gateLaw :=
  (settleGates_gateLaw (h.inOrder.latchGates ..)).of_gateView rfl

theorem gateLaw.takeSettings (h : s.gateLaw) (tag : Byte) (new : Settings) :
    (s.takeSettings tag new).gateLaw := by
  have hput : (s.putSettings new).gateLaw := h.of_gateView rfl
  unfold State.takeSettings
  split
  · exact h.of_gateView rfl
  · exact hput.judge.of_gateView rfl

theorem gateLaw.takeFillMask (h : s.gateLaw) (tag mask0 mask1 : Byte) :
    (s.takeFillMask tag mask0 mask1).gateLaw := by
  have hmask : ({ s with engine := { s.engine with fillMask := flags16 mask0 mask1 } } : State).gateLaw := h
  exact hmask.judge.of_gateView rfl

theorem gateLaw.takeDoze (h : s.gateLaw) (tag : Byte) : (s.takeDoze tag).gateLaw := by
  have hreply : (s.reply tag codeDoze .ok []).gateLaw := h.of_gateView rfl
  unfold State.takeDoze
  split
  · exact hreply.inOrder.enterDoze
  · exact hreply

theorem gateLaw.takeAdvance (h : s.gateLaw) (tag : Byte) : (s.takeAdvance tag).gateLaw := by
  unfold State.takeAdvance
  split
  · dsimp only
    split <;> exact h.of_gateView rfl
  · exact h.of_gateView rfl

theorem ite_gateLaw {p : Prop} [Decidable p] {t : State} (hs : s.gateLaw) (ht : t.gateLaw) :
    (if p then s else t).gateLaw := by
  split
  · exact hs
  · exact ht

theorem gateLaw.lengthByte (h : s.gateLaw) (code tag : Byte) (length : Nat) :
    (s.lengthByte code tag length).gateLaw := by
  have hdone : (s.setChannel .done).gateLaw := h.of_gateView rfl
  unfold State.lengthByte
  split
  case h_1 =>
    split
    case h_1 => exact hdone
    case h_2 => exact h.of_gateView rfl
    case h_3 =>
      exact ite_gateLaw (h.of_gateView rfl) (ite_gateLaw (hdone.takeFaultAck tag)
        (ite_gateLaw (h.of_gateView rfl) (ite_gateLaw (h.of_gateView rfl)
        (ite_gateLaw (hdone.takeDoze tag) (ite_gateLaw (hdone.takeAdvance tag) (h.of_gateView rfl))))))
  all_goals exact h

end State

theorem execFetch_gateLaw (h : s.gateLaw) : nextHas State.gateLaw (execFetch s) := by
  unfold execFetch
  split <;> exact nextHas_next.2 (h.of_gateView rfl)

theorem execFuseBitVerify_gateLaw (h : s.gateLaw) (blown : Bool) :
    nextHas State.gateLaw (execFuseBitVerify blown s) := by
  unfold execFuseBitVerify
  split
  · exact nextHas_next.2 h
  · split
    · refine nextHas_next.2 ?_
      split <;> exact h.of_gateView rfl
    · exact nextHas_next.2 (h.of_gateView (by simp))

end Sys2Proof.Machine
end

section
/-!
The engine's events and the timed events of the gates and of the alert line keep the gate law (chapters 7 to 9).
-/
namespace Sys2Proof.Machine
variable {s : State}

namespace State

theorem gatesInOrder.completeRead (h : s.gatesInOrder) : s.completeRead.gateLaw := by
  unfold State.completeRead
  split
  case isTrue hhalted => exact h.gateLaw_of_not_run (by simp [hhalted])
  case isFalse => exact (settleGates_gateLaw (h.of_gateView s.endRead_gateView)).judge

/-- A byte that is not its segment's last moves its context on and no verdict is written (R100, R108). -/
theorem gateLaw.fetchByte (h : s.gateLaw) (i : Nat) (b : Byte) : (s.fetchByte i b).gateLaw := by
  unfold State.fetchByte
  split
  · exact h
  · next c hc =>
    split
    case isTrue => exact (h.inOrder.extend i b .fetch).completeRead
    case isFalse hshort =>
      rw [extend_of_short hc hshort]
      exact h.of_gateView (setSlot_gateView ..)

end State

theorem execFetchDataByte_gateLaw (h : s.gateLaw) (b : Byte) :
    nextHas State.gateLaw (execFetchDataByte b s) := by
  unfold execFetchDataByte
  split
  · exact nextHas_next.2 h
  · split
    case h_1 => exact nextHas_next.2 (h.fetchByte ..)
    case h_2 => exact nextHas_next.2 (h.fetchByte ..)
    all_goals exact nextHas_next.2 h

theorem execPortAvailable_gateLaw (h : s.gateLaw) (p : Port) :
    nextHas State.gateLaw (execPortAvailable p s) := by
  unfold execPortAvailable
  split
  · exact nextHas_next.2 h
  · split
    · exact nextHas_next.2 h
    · exact nextHas_next.2 (State.gateLaw.judge (h.of_gateView (by simp)))

theorem execPatrolTimerExpiry_gateLaw (h : s.gateLaw) : nextHas State.gateLaw (execPatrolTimerExpiry s) := by
  unfold execPatrolTimerExpiry
  split
  · exact nextHas_next.2 h
  · exact nextHas_next.2 (State.gateLaw.judge (h.of_gateView rfl))

namespace State

/-- RISING ends in ON, in the conditions of RISING (R140). -/
theorem gateLaw.printOn (h : s.gateLaw) (hrising : s.gates.print.state = .rising) : s.printOn.gateLaw := by
  refine gateLaw.of_gateView ?_ (confirmBoot_gateView (s.setPrint .on none))
  obtain ⟨horder, hprint, hscan⟩ := s.gateLaw_iff.1 h
  have hgood := hprint (.inl hrising)
  have hrun : s.control.phase = .run := (s.gateGood_iff _ |>.1 hgood).1
  exact (gateLaw_iff _).2
    ⟨setPrint_gatesInOrder horder (by decide) fun hp => absurd hrun hp, fun _ => hgood, hscan⟩

/-- FALLING ends in OFF (R140). -/
theorem gateLaw.printOff (h : s.gateLaw) : (s.setPrint .off none).gateLaw := by
  obtain ⟨horder, -, hscan⟩ := s.gateLaw_iff.1 h
  refine (gateLaw_iff _).2 ⟨setPrint_gatesInOrder horder (by decide) fun _ => rfl, fun hup => ?_, hscan⟩
  rcases hup with hup | hup <;> cases hup

/-- The expiry of a replaced timer leaves a timer running (R145). -/
theorem gateLaw.replacedExpiry (h : s.gateLaw) {timer : SequenceTimer} (ht : s.gates.timer = some timer) :
    (s.replacedExpiry timer).gateLaw := by
  obtain ⟨hlines, ⟨htimer, hrests⟩, hoff, hprint, hscan⟩ := h
  rw [ht] at htimer
  exact ⟨hlines, ⟨htimer, hrests⟩, hoff, hprint, hscan⟩

theorem gatesInOrder.filteredAssertion (h : s.gatesInOrder) : s.filteredAssertion.gateLaw := by
  unfold State.filteredAssertion
  split
  case isTrue hhalted => exact h.gateLaw_of_not_run (by simp [hhalted])
  case isFalse => exact settleGates_gateLaw ((h.pushFault ..).raise _)

end State

theorem execSequenceTimerExpiry_gateLaw (h : s.gateLaw) :
    nextHas State.gateLaw (execSequenceTimerExpiry s) := by
  unfold execSequenceTimerExpiry
  split
  · exact nextHas_next.2 h
  · next timer ht =>
    have hreached := h.reachTime timer.dueAt
    split
    · exact nextHas_next.2 (h.replacedExpiry ht)
    · split
      case h_1 hrising => exact nextHas_next.2 ((hreached.printOn hrising).judgeIfConfirmed s)
      case h_2 => exact nextHas_next.2 hreached.printOff.completeDoze
      all_goals exact nextHas_next.2 h

theorem execDeadlineExpiry_gateLaw (h : s.gateLaw) : nextHas State.gateLaw (execDeadlineExpiry s) := by
  unfold execDeadlineExpiry
  split
  · refine nextHas_next.2 (State.settleGates_gateLaw (State.gatesInOrder.raise
      (State.gatesInOrder.pushFault ?_ ..) _))
    exact h.inOrder
  · exact nextHas_next.2 h

theorem GateUnit.sample_gates (g : GateUnit) (high : Bool) :
    (g.sample high).print = g.print ∧ (g.sample high).scan = g.scan ∧ (g.sample high).timer = g.timer := by
  unfold GateUnit.sample
  split
  · exact ⟨rfl, rfl, rfl⟩
  · split <;> exact ⟨rfl, rfl, rfl⟩

/-- A tamper sample moves the filter alone (R153). -/
theorem State.gateLaw.sample (h : s.gateLaw) (high : Bool) (due : Time) :
    ({ s with gates := { s.gates.sample high with sampledAt := due } } : State).gateLaw := by
  obtain ⟨hprint, hscan, htimer⟩ := s.gates.sample_gates high
  refine h.of_gateView ?_
  simp only [State.gateView, hprint, hscan, htimer]

theorem execTamperSample_gateLaw (h : s.gateLaw) (high : Bool) :
    nextHas State.gateLaw (execTamperSample high s) := by
  have hreached (due : Time) : (s.reachTime due).gateLaw := h.reachTime due
  unfold execTamperSample
  split
  · exact nextHas_next.2 h
  · refine nextHas_next.2 ?_
    split
    · exact ((hreached _).sample high _).inOrder.filteredAssertion
    · exact (hreached _).sample high _

theorem execAlertPulseEnd_gateLaw (h : s.gateLaw) : nextHas State.gateLaw (execAlertPulseEnd s) := by
  unfold execAlertPulseEnd
  split <;> exact nextHas_next.2 (h.of_gateView rfl)

theorem execAlertGapEnd_gateLaw (h : s.gateLaw) : nextHas State.gateLaw (execAlertGapEnd s) := by
  unfold execAlertGapEnd
  split <;> exact nextHas_next.2 (h.of_gateView rfl)

end Sys2Proof.Machine
end

section
/-!
The commands of the wake keep the gate law (chapter 11).
-/
namespace Sys2Proof.Machine
variable {s : State}

theorem execWakeEdge_gateLaw (h : s.gateLaw) : nextHas State.gateLaw (execWakeEdge s) := by
  refine nextHas_next.2 ?_
  split
  case isTrue hc => exact h.startWaking (by simp [hc.2])
  case isFalse => exact h

theorem execSettleTimerExpiry_gateLaw (h : s.gateLaw) : nextHas State.gateLaw (execSettleTimerExpiry s) := by
  unfold execSettleTimerExpiry
  split
  · exact nextHas_next.2 h
  · next start _ =>
    have hreached := h.reachTime (settleDue start)
    split
    case h_1 hrecovery =>
      refine nextHas_next.2 (hreached.inOrder.becomeActive.gateLaw_of_not_run ?_)
      simp [hrecovery]
    case h_2 =>
      generalize s.reachTime (settleDue start) = t at hreached ⊢
      refine nextHas_next.2 (State.gateLaw.startRead ?_ _ _)
      exact hreached
    all_goals exact nextHas_next.2 h

theorem execWakeIdentityReadEnd_gateLaw (h : s.gateLaw) (b0 b1 b2 : Byte) :
    nextHas State.gateLaw (execWakeIdentityReadEnd b0 b1 b2 s) := by
  have hread : s.closeWakeRead.gateLaw := h.of_gateView s.closeWakeRead_gateView
  unfold execWakeIdentityReadEnd
  split
  · refine nextHas_next.2 (State.gateLaw.startRead ?_ _ _)
    exact hread
  · refine nextHas_next.2 (State.gateLaw.startRead ?_ _ _)
    exact hread
  · exact nextHas_next.2 h

theorem State.gateLaw.wakeEnd (h : s.gateLaw) (bytes : List Byte) : (s.wakeEnd bytes).gateLaw := by
  have hended : s.endWakeJob.gatesInOrder := h.inOrder.of_gateView s.endWakeJob_gateView
  unfold State.wakeEnd
  split
  · split
    · dsimp only
      split
      · exact (State.settleGates_gateLaw hended.becomeActive).judge
      · exact State.enterRecovery_gateLaw _
    · exact h
  · exact h

end Sys2Proof.Machine
end

section
/-!
Every command keeps the gate law, and so does every step; the sentences of R143 are read off the law.
-/
namespace Sys2Proof.Machine
variable {s : State}

theorem exec_gateLaw (h : s.gateLaw) (i : Instr) : nextHas State.gateLaw (exec i s) := by
  cases i with
  | reset => exact execReset_gateLaw s
  | resetEnd => exact execResetEnd_gateLaw h
  | identityReadEnd => exact execIdentityReadEnd_gateLaw h _ _ _
  | headerReadEnd bytes => exact nextHas_whenWellFormed (h.headerEnd bytes) _
  | bodyReadEnd bytes => exact nextHas_whenWellFormed (h.bodyEnd bytes) _
  | upstreamCsAssert => exact execUpstreamCsAssert_gateLaw h _
  | commandByte => exact execCommandByte_gateLaw h _
  | addressComplete => exact execAddressComplete_gateLaw h _
  | readDataByte => exact execReadDataByte_gateLaw h _
  | upstreamCsDeassert => exact execUpstreamCsDeassert_gateLaw h _
  | fetch => exact execFetch_gateLaw h
  | unknownRequest => exact nextHas_whenWellFormed (h.lengthByte ..) _
  | requestLengthByte => exact nextHas_whenWellFormed (h.lengthByte ..) _
  | status => exact nextHas_next.2 (h.request _ _ _ fun _ hu => hu.of_gateView rfl)
  | verdicts => exact nextHas_next.2 (h.request _ _ _ fun _ hu => hu.takeVerdicts ..)
  | faultRead => exact nextHas_next.2 (h.request _ _ _ fun _ hu => hu.takeFaultRead ..)
  | faultAck => exact nextHas_next.2 (h.request _ _ _ fun _ hu => hu.takeFaultAck _)
  | rearm => exact nextHas_next.2 (h.request _ _ _ fun _ hu => hu.takeRearm ..)
  | forceOff => exact nextHas_next.2 (h.request _ _ _ fun _ hu => hu.takeForceOff ..)
  | settings => exact nextHas_next.2 (h.request _ _ _ fun _ hu => hu.takeSettings ..)
  | lock => exact nextHas_next.2 (h.request _ _ _ fun _ hu => hu.of_gateView rfl)
  | fillMask => exact nextHas_next.2 (h.request _ _ _ fun _ hu => hu.takeFillMask ..)
  | time => exact nextHas_next.2 (h.request _ _ _ fun _ hu => hu.of_gateView rfl)
  | doze => exact nextHas_next.2 (h.request _ _ _ fun _ hu => hu.takeDoze _)
  | advance => exact nextHas_next.2 (h.request _ _ _ fun _ hu => hu.takeAdvance _)
  | fuseBitVerify => exact execFuseBitVerify_gateLaw h _
  | fetchDataByte => exact execFetchDataByte_gateLaw h _
  | portAvailable => exact execPortAvailable_gateLaw h _
  | sequenceTimerExpiry => exact execSequenceTimerExpiry_gateLaw h
  | patrolTimerExpiry => exact execPatrolTimerExpiry_gateLaw h
  | deadlineExpiry => exact execDeadlineExpiry_gateLaw h
  | tamperSample => exact execTamperSample_gateLaw h _
  | alertPulseEnd => exact execAlertPulseEnd_gateLaw h
  | alertGapEnd => exact execAlertGapEnd_gateLaw h
  | wakeEdge => exact execWakeEdge_gateLaw h
  | settleTimerExpiry => exact execSettleTimerExpiry_gateLaw h
  | wakeIdentityReadEnd => exact execWakeIdentityReadEnd_gateLaw h _ _ _
  | wakeCheck bytes => exact nextHas_whenWellFormed (h.wakeEnd bytes) _

theorem step_gateLaw (h : s.gateLaw) : nextHas State.gateLaw (step s) := by
  unfold step
  split
  · exact nextHas_next.2 (h.of_gateView s.tick_gateView)
  · refine exec_gateLaw ?_ _
    exact h

/-- While EARM is asserted the print gate is ON, with all that ON asks for (R143). -/
theorem State.gateLaw.of_earm (h : s.gateLaw) (hearm : s.lines.earm = true) :
    s.gates.print.state = .on ∧ s.control.phase = .run ∧ s.power.state = .active ∧ s.lines.epwr = true ∧
      s.maskProven s.gates.print.mask := by
  obtain ⟨⟨hepwr, hfollows, -⟩, -, -, hup, -⟩ := h
  have hon : s.gates.print.state = .on := by
    rw [hearm] at hfollows
    cases hp : s.gates.print.state <;> simp [hp, GateState.arms] at hfollows ⊢
  obtain ⟨hrun, hactive, hproven, -⟩ := hup (.inr hon)
  refine ⟨hon, hrun, hactive, ?_, hproven⟩
  rw [hepwr, hon]
  rfl

/-- Outside RUN all three gate outputs are deasserted (R143). -/
theorem State.gateLaw.lines_of_not_run (h : s.gateLaw) (hrun : s.control.phase ≠ .run) :
    s.lines.epwr = false ∧ s.lines.earm = false ∧ s.lines.scnen = false := by
  obtain ⟨⟨hepwr, hearm, hscnen⟩, -, hoff⟩ := h.inOrder
  obtain ⟨hprint, hscan⟩ := hoff hrun
  rw [hepwr, hearm, hscnen, hprint, hscan]
  exact ⟨rfl, rfl, rfl⟩

/-- Settles O54: every step keeps the law, and the two sentences of R143 are read off it. -/
theorem gateLawIsKeptByEveryStep : Obligations.GateLawIsKeptByEveryStep := by
  intro s t hstep hs
  have ht : t.gateLaw := step_gateLaw hs t hstep
  refine ⟨ht, fun hearm => ?_, ht.lines_of_not_run⟩
  obtain ⟨hon, hrun, hactive, hepwr, hproven⟩ := ht.of_earm hearm
  refine ⟨hon, hrun, hactive, hepwr, fun i hi hbit => ?_⟩
  obtain ⟨r, hr, -, hall⟩ := hproven i hi hbit
  exact ⟨r, hr, hall⟩

end Sys2Proof.Machine
end

section
/-!
The requests accepted in each phase and power state (R175). `accepts` answers over bytes; each line of the table is
said here of the code as a number, which is how the rule speaks of it.
-/
namespace Sys2Proof.Machine

/-- The known codes are 01h to 0Ch (R174). -/
theorem parameterLength_isSome_iff (code : Byte) :
    (parameterLength code).isSome = true ↔ 1 ≤ code.toNat ∧ code.toNat ≤ 12 := by
  unfold parameterLength
  split
  case h_13 => grind -- each of 1 to 12 is excluded by an arm above
  all_goals simp [*]

theorem byte_contains_iff (codes : List Byte) (code : Byte) :
    codes.contains code = true ↔ code.toNat ∈ codes.map BitVec.toNat := by
  rw [List.contains_iff_mem, List.mem_map]
  constructor
  · exact fun hmem => ⟨code, hmem, rfl⟩
  · rintro ⟨known, hmem, hsame⟩
    exact BitVec.eq_of_toNat_eq hsame ▸ hmem

theorem accepts_run_active (code : Byte) :
    accepts .run .active code = true ↔ 1 ≤ code.toNat ∧ code.toNat ≤ 12 :=
  parameterLength_isSome_iff code

theorem accepts_recovery_active (code : Byte) :
    accepts .recovery .active code = true ↔ code.toNat ∈ [1, 2, 3, 4, 5, 6, 10, 11] :=
  byte_contains_iff _ code

theorem accepts_enteringDoze {phase : Phase} (h : phase = .run ∨ phase = .recovery) (code : Byte) :
    accepts phase .enteringDoze code = true ↔ code.toNat ∈ [1, 10, 11] := by
  rcases h with rfl | rfl <;> exact byte_contains_iff _ code

theorem accepts_waking {phase : Phase} (h : phase = .run ∨ phase = .recovery) (code : Byte) :
    accepts phase .waking code = true ↔ code.toNat ∈ [1, 10] := by
  rcases h with rfl | rfl <;> exact byte_contains_iff _ code

/-- In DOZE no request is accepted, in any phase. -/
theorem accepts_doze (phase : Phase) (code : Byte) : accepts phase .doze code = false := by
  cases phase <;> rfl

/-- A phase other than RUN and RECOVERY accepts no request, in any power state. -/
theorem accepts_of_not_run_of_not_recovery {phase : Phase} (hrun : phase ≠ .run) (hrec : phase ≠ .recovery)
    (power : PowerState) (code : Byte) : accepts phase power code = false := by
  cases phase with
  | hold => rfl
  | halted => rfl
  | run => exact absurd rfl hrun
  | recovery => exact absurd rfl hrec

/-- Settles O43: a phase that accepts nothing is set aside; in RUN and RECOVERY each power state has its own line. -/
theorem acceptanceByPhaseAndPower : Obligations.AcceptanceByPhaseAndPower := by
  intro phase power n hn
  have hcode : (BitVec.ofNat 8 n).toNat = n := (BitVec.toNat_ofNat n 8).trans (Nat.mod_eq_of_lt hn)
  by_cases hphase : phase = .run ∨ phase = .recovery
  case neg =>
    obtain ⟨hrun, hrec⟩ := not_or.1 hphase
    simp [accepts_of_not_run_of_not_recovery hrun hrec, hrun, hrec]
  cases power with
  | active =>
    rcases hphase with rfl | rfl
    · simp [accepts_run_active, hcode]
    · simp [accepts_recovery_active, hcode]
  | enteringDoze => simp [accepts_enteringDoze hphase, hphase, hcode]
  | doze => simp [accepts_doze]
  | waking => simp [accepts_waking hphase, hphase, hcode]

end Sys2Proof.Machine
end

section
/-!
What a step can do, said once. A command other than RESET takes the part through a chain of moves, each one a small
change with the circumstances in which it happens; `exec_moves` walks through the commands and every law that
all steps keep is then checked move by move. `State.lawView` is what those laws read; a move that changes nothing
of it is quiet. A move's circumstances may rest on the read law (`R`) and on the law of HALTED (`H`) of the state in
which the step starts.
-/
namespace Sys2Proof.Machine

namespace State

/-- What the laws read of a state, the rest at its reset values. -/
def lawView (s : State) : State := { State.reset with
  pending := s.pending
  fuses := s.fuses
  advance := s.advance
  control := { PhaseControl.afterReset with phase := s.control.phase, bootConfirmed := s.control.bootConfirmed }
  settings := { Settings.afterReset with alertMode := s.settings.alertMode }
  lock := s.lock
  transaction := s.transaction
  segments := s.segments
  pool := { Pool.afterReset with slots := s.pool.slots, gaps := s.pool.gaps }
  engine := { Engine.afterReset with job := s.engine.job, read := s.engine.read }
  gates := { GateUnit.afterReset with
    print := ⟨s.gates.print.state, false, 0⟩, scan := ⟨s.gates.scan.state, false, 0⟩
    timer := s.gates.timer, deadline := s.gates.deadline }
  faults := s.faults
  alert := s.alert
  power := { PowerControl.afterReset with state := s.power.state, settle := s.power.settle }
  lines := s.lines }

/-- A read may be in progress for a job in the state's phase and power state (R119, R120). -/
def readFits (s : State) (j : Job) (r : FetchRead) : Prop :=
  j = r.kind.job ∧
    match r.kind.job with
    | .manifest => s.control.phase = .hold ∧ s.lines.rst = false
    | .fill | .patrol => s.control.phase = .run ∧ s.power.state = .active
    | .wake => s.control.phase = .run ∧ s.power.state = .waking
    | .idle => False

end State

/-- A move of the context pool, the gap queue and the segment states (chapter 6, 5.5). -/
inductive PoolMove : State → State → Prop
  /-- A context moves on, is fed or is left unfed (R100, R107, R127). -/
  | change (s : State) (i : Nat) (c d : Context) (hc : s.pool.context i = some c) (hseg : d.seg = c.seg)
      (hrole : d.role = c.role) (hfill : c.fill < segmentBytes → d.fill < segmentBytes) :
      PoolMove s (s.setSlot i (some d))
  /-- The proof of an UNSEEN segment begins (R102, R106). -/
  | grant (s : State) (i : Nat) (c : Context) (hi : i < s.pool.slots.length)
      (hfree : s.pool.context i = none) (hrole : c.role = .verify) (hfill : c.fill < segmentBytes)
      (hst : s.segState c.seg = some .unseen) :
      PoolMove s ((s.setSlot i (some c)).setSegState c.seg .hashing)
  /-- The patrol of a VERIFIED segment begins (R106, R132). -/
  | grantPatrol (s : State) (i : Nat) (c : Context) (hi : i < s.pool.slots.length)
      (hfree : s.pool.context i = none) (hnone : s.pool.patrolSlot = none) (hrole : c.role = .patrol)
      (hfill : c.fill < segmentBytes) (hst : s.segState c.seg = some .verified) :
      PoolMove s (s.setSlot i (some c))
  /-- A verdict is written (R108). -/
  | verdict (s : State) (i : Nat) (c : Context) (hc : s.pool.context i = some c) (equal : Bool) :
      PoolMove s (((s.setSegState c.seg (verdict equal)).setSlot i none).purgeGap c.seg)
  /-- A VERIFY context is evicted (R104). -/
  | release (s : State) (i : Nat) (c : Context) (hc : s.pool.context i = some c) (hrole : c.role = .verify) :
      PoolMove s (((s.setSlot i none).setSegState c.seg .unseen).appendGap c.seg)
  /-- The PATROL context is freed (R105, R132). -/
  | releasePatrol (s : State) (i : Nat) (c : Context) (hc : s.pool.context i = some c)
      (hrole : c.role = .patrol) : PoolMove s (s.setSlot i none)
  /-- A segment leaves the gap queue (R114, R127). -/
  | purge (s : State) (g : Nat) : PoolMove s (s.purgeGap g)
  /-- A segment joins the gap queue (R104, R111, R113). -/
  | append (s : State) (g : Nat) (hst : s.segState g = some .unseen ∨ s.segState g = some .hashing) :
      PoolMove s (s.appendGap g)
  /-- A forwarded write marks its segments (R87, R88). -/
  | mark (s : State) (run : SegmentRun) : PoolMove s (s.reportWrite run)
  /-- Every context is discarded (R117). -/
  | discard (s : State) :
      PoolMove s { s with segments := discardedSegments s.segments s.pool, pool := Pool.afterReset }

/-- A move of the part. -/
inductive Move (R H : Prop) : State → State → Prop
  | quiet (s t : State) (h : t.lawView = s.lawView) : Move R H s t
  | pool (s t : State) (h : PoolMove s t) : Move R H s t
  | transaction (s : State) (x : Option Transaction) (hawake : R → H → s.control.phase ≠ .halted) :
      Move R H s { s with transaction := x }
  | advance (s : State) (f : Fuses) (l : List FuseTarget) (hgrow : s.fuses.grow f)
      (hawake : R → H → s.control.phase ≠ .halted) : Move R H s { s with fuses := f, advance := l }
  | lock (s : State) : Move R H s { s with lock := true }
  | boot (s : State) : Move R H s { s with control := { s.control with bootConfirmed := true } }
  | settle (s : State) : Move R H s s.settleGates
  | gates (s : State) (g : GateUnit) (epwr earm : Bool) (hawake : R → H → s.control.phase ≠ .halted) :
      Move R H s { s with gates := g, lines := { s.lines with epwr := epwr, earm := earm } }
  | push (s : State) (k : FaultKind) (r g a : Option Nat) (d : Byte) : Move R H s (s.pushFault k r g a d)
  | acknowledge (s : State) (r : FaultRecord) (rest : List FaultRecord) (h : s.faults = r :: rest)
      (hawake : R → H → s.control.phase ≠ .halted) :
      Move R H s { s with
        faults := rest, alert := s.alert.acknowledge s.settings.alertMode rest.length }
  | settings (s : State) (x : Settings) (hawake : R → H → s.control.phase ≠ .halted) :
      Move R H s (s.putSettings x)
  | pulseEnd (s : State) (start now : Time) (h : s.alert.timing = .pulse start) :
      Move R H s { s with
        alert := { asserted := false, pendingPulses := s.alert.pendingPulses - 1, timing := .gap now } }
  | gapEnd (s : State) (start now : Time) (h : s.alert.timing = .gap start) :
      Move R H s { s with
        alert := if 0 < s.alert.pendingPulses then s.alert.beginPulse now else { s.alert with timing := .idle } }
  | endRead (s : State) (j : Job) (hj : j = s.engine.job ∨ j = .idle) :
      Move R H s { s with engine := { s.engine with job := j, read := none } }
  | startRead (s : State) (j : Job) (r : FetchRead) (hfits : R → s.readFits j r) :
      Move R H s { s with engine := { s.engine with job := j, read := some r } }
  | power (s : State) (w : PowerControl)
      (hread : R → w.state = s.power.state ∨ s.engine.read = none ∨ s.control.phase = .hold)
      (hsettle : R → w.settle.isSome = true →
        w.state = .waking ∧ (s.control.phase = .run ∨ s.control.phase = .recovery)) :
      Move R H s { s with power := w }
  | release (s : State) : Move R H s { s with lines := { s.lines with rst := false } }
  | halt (s : State) (hat : R → s.power.settle = none ∧ s.lines.rst = false) : Move R H s s.enterHalted
  | recover (s : State) (hat : R → s.power.settle = none ∧ s.lines.rst = false)
      (hawake : R → H → s.control.phase ≠ .halted) : Move R H s s.enterRecovery
  | commit (s : State) (c : Candidate) (copy : CandidateCopy) (d : List Int)
      (hat : R → s.control.phase = .hold ∧ s.lines.rst = false) : Move R H s (s.commit c copy d)

/-- A chain of moves. -/
inductive Moves (R H : Prop) (s : State) : State → Prop where
  | refl : Moves R H s s
  | tail {t u : State} (h : Moves R H s t) (hlast : Move R H t u) : Moves R H s u

namespace Moves
variable {R H : Prop} {s t u : State}

theorem one (h : Move R H s t) : Moves R H s t := .tail .refl h

theorem trans (h : Moves R H s t) (hu : Moves R H t u) : Moves R H s u := by
  induction hu with
  | refl => exact h
  | tail _ hlast ih => exact .tail ih hlast

theorem quiet (h : t.lawView = s.lawView) : Moves R H s t := one (.quiet s t h)

theorem then_quiet (h : Moves R H s t) (hq : u.lawView = t.lawView) : Moves R H s u := h.trans (quiet hq)

/-- A law that every move keeps is kept by a chain of moves. -/
theorem keeps {P : State → Prop} (hmove : ∀ s t, Move R H s t → P s → P t) (h : Moves R H s t) (hs : P s) :
    P t := by
  induction h with
  | refl => exact hs
  | tail _ hlast ih => exact hmove _ _ hlast ih

end Moves

end Sys2Proof.Machine
end

section
/-!
The shared operations as chains of moves, in the order of the model.
-/
namespace Sys2Proof.Machine
variable {R H : Prop} {s : State}

namespace State

@[simp] theorem setPort_lawView (s : State) (p : Port) (q : PortState) :
    (s.setPort p q).lawView = s.lawView := by
  obtain ⟨_, _, h⟩ := s.setPort_frame p q
  rw [h]
  rfl

@[simp] theorem reachTime_lawView (s : State) (due : Time) : (s.reachTime due).lawView = s.lawView := rfl

@[simp] theorem tick_lawView (s : State) : s.tick.lawView = s.lawView := by
  unfold tick
  split <;> rfl

@[simp] theorem openRecord_lawView (s : State) (g offset : Nat) :
    (s.openRecord g offset).lawView = s.lawView := by
  rw [openRecord_eq]
  rfl

@[simp] theorem touch_lawView (s : State) (g : Nat) : (s.touch g).lawView = s.lawView := by
  unfold touch
  split <;> rfl

@[simp] theorem latchGates_lawView (s : State) (print scan : Bool) :
    (s.latchGates print scan).lawView = s.lawView := rfl

@[simp] theorem raise_lawView (s : State) (t : Trigger) : (s.raise t).lawView = s.lawView := rfl

@[simp] theorem tripDenied_lawView (s : State) (g : Nat) : (s.tripDenied g).lawView = s.lawView := by
  unfold tripDenied
  split
  · split <;> rfl
  · rfl

/-! ### Reads -/

theorem closeRead_moves (s : State) : Moves R H s s.closeRead := by
  obtain ⟨a, b, h⟩ := s.closeRead_frame
  rw [h]
  exact Moves.then_quiet (.one (.endRead s s.engine.job (.inl rfl))) rfl

theorem endRead_moves (s : State) : Moves R H s s.endRead := by
  obtain ⟨a, b, h⟩ := s.endRead_frame
  rw [h]
  exact Moves.then_quiet (.one (.endRead s .idle (.inr rfl))) rfl

theorem startRead_moves {j : Job} {r : FetchRead} (hfits : R → s.readFits j r) :
    Moves R H s (s.startRead j r) := by
  obtain ⟨a, b, h⟩ := s.startRead_frame j r
  rw [h]
  exact Moves.then_quiet (.one (.startRead s j r hfits)) rfl

/-- A wake read closes as a read does, but for what it leaves of the port. -/
theorem closeWakeRead_frame (s : State) : ∃ a b, s.closeWakeRead = { s with
    port0 := a, port1 := b, engine := { s.engine with read := none } } := by
  unfold closeWakeRead
  split
  · next h => exact ⟨s.port0, s.port1, by simp [← h]⟩
  · next r _ =>
    obtain ⟨a, b, e⟩ := s.setPort_frame r.port (s.port r.port).afterWakeRead
    exact ⟨a, b, by rw [e]⟩

theorem closeWakeRead_moves (s : State) : Moves R H s s.closeWakeRead := by
  obtain ⟨a, b, h⟩ := s.closeWakeRead_frame
  rw [h]
  exact Moves.then_quiet (.one (.endRead s s.engine.job (.inl rfl))) rfl

theorem endWakeJob_moves (s : State) : Moves R H s s.endWakeJob := by
  refine s.closeWakeRead_moves.trans ?_
  obtain ⟨a, b, h⟩ := s.closeWakeRead_frame
  simp only [endWakeJob, h]
  exact Moves.then_quiet (.one (.endRead _ .idle (.inr rfl))) rfl

/-! ### Gates -/

theorem confirmBoot_moves (hawake : R → H → s.control.phase ≠ .halted) : Moves R H s s.confirmBoot := by
  unfold confirmBoot
  split
  · exact .refl
  · exact ((Moves.one (.boot s)).trans
      (.one (.gates _ { s.gates with deadline := .disarmed } s.lines.epwr s.lines.earm hawake))).then_quiet rfl

theorem setPrint_moves (hawake : R → H → s.control.phase ≠ .halted) (st : GateState)
    (timer : Option SequenceTimer) : Moves R H s (s.setPrint st timer) :=
  .one (.gates s { s.gates with print := { s.gates.print with state := st }, timer := timer } _ _ hawake)

theorem printOn_moves (hawake : R → H → s.control.phase ≠ .halted) : Moves R H s s.printOn :=
  (setPrint_moves hawake .on none).trans (confirmBoot_moves hawake)

theorem disarm_moves (hawake : R → H → s.control.phase ≠ .halted) : Moves R H s s.disarm :=
  .one (.gates s { s.gates with deadline := .disarmed } s.lines.epwr s.lines.earm hawake)

/-! ### The pool -/

theorem purgeGap_moves (s : State) (g : Nat) : Moves R H s (s.purgeGap g) := .one (.pool _ _ (.purge s g))

/-- What an eviction does to the pool comes after the end of the read that feeds the context (R104, R105). -/
theorem evict_moves (s : State) (i : Nat) : Moves R H s (s.evict i) := by
  cases hc : s.pool.context i with
  | none => simp only [evict, hc]; exact .refl
  | some c =>
    have hunfed : Moves R H s (s.unfed c) := by
      unfold unfed
      split
      · exact s.endRead_moves
      · exact .refl
    obtain ⟨a, b, e, hframe⟩ := s.unfed_frame c
    have hcu : (s.unfed c).pool.context i = some c := by rw [hframe]; exact hc
    refine hunfed.trans ?_
    cases hrole : c.role with
    | verify =>
      have h : s.evict i = (((s.unfed c).setSlot i none).setSegState c.seg .unseen).appendGap c.seg := by
        simp [evict, hc, hrole, unfed]
      rw [h]
      exact .one (.pool _ _ (.release _ i c hcu hrole))
    | patrol =>
      rw [evict_patrol hc hrole, hframe]
      rw [hframe] at hcu
      exact Moves.then_quiet (.one (.pool _ _ (.releasePatrol _ i c hcu hrole))) rfl

/-- A byte that reaches a context: it moves on, its verdict is written, or the part is HALTED (R100, R108). -/
theorem extend_moves (hat : R → s.power.settle = none ∧ s.lines.rst = false) (i : Nat) (b : Byte)
    (st : Stream) : Moves R H s (s.extend i b st) := by
  cases hc : s.pool.context i with
  | none => simp only [extend, hc]; exact .refl
  | some c =>
    by_cases hlast : c.fill + 1 = segmentBytes
    case neg =>
      rw [extend_of_short hc hlast]
      exact .one (.pool _ _ (.change s i c _ hc rfl rfl (by dsimp only; omega)))
    case pos =>
      rcases s.extend_cases i b st with h | ⟨c', hc', ⟨hshort, -⟩ | ⟨-, e, -, h | h⟩⟩
      · rw [h]; exact .refl
      · rw [hc] at hc'; cases hc'; exact absurd hlast hshort
      · rw [hc] at hc'; cases hc'
        rw [h]
        unfold writeVerdict
        have hverdict := Moves.one (R := R) (H := H) (.pool _ _ (.verdict s i c hc
          (decide ((c.digest.push b).final = e.digest))))
        dsimp only
        split
        · exact hverdict
        · exact (hverdict.trans (.one (.push _ _ _ _ _ _))).then_quiet rfl
      · rw [h]
        exact .one (.halt s hat)

/-- Where a quiet move leads, the settle timer and reset are as they were. -/
theorem calm_of_lawView {t : State} (h : t.lawView = s.lawView)
    (hs : s.power.settle = none ∧ s.lines.rst = false) : t.power.settle = none ∧ t.lines.rst = false :=
  ⟨(congrArg (fun x : State => x.power.settle) h).trans hs.1, (congrArg (fun x : State => x.lines.rst) h).trans hs.2⟩

theorem segState_setSegState (s : State) (g k : Nat) (st : SegState) :
    (s.setSegState g st).segState k = if k = g then (s.segState g).map (fun _ => st) else s.segState k := by
  by_cases h : k = g
  · subst h
    have hkeep : ((fun e : SegEntry => e.seg == k) ∘ fun e => if e.seg = k then { e with state := st } else e) =
        fun e => e.seg == k := by
      funext e
      by_cases he : e.seg = k <;> simp [he]
    simp only [segState, entry, setSegState, List.find?_map, hkeep, if_pos]
    cases hf : s.segments.find? (fun e => e.seg == k) with
    | none => rfl
    | some e =>
      have he : e.seg = k := by simpa using List.find?_some hf
      simp [he]
  · rw [if_neg h, segState_setSegState_ne h]

/-- An eviction leaves an UNSEEN segment UNSEEN. -/
theorem evict_unseen {g : Nat} (hg : s.segState g = some .unseen) (i : Nat) :
    (s.evict i).segState g = some .unseen := by
  cases hc : s.pool.context i with
  | none => simpa only [evict, hc] using hg
  | some c =>
    cases hrole : c.role with
    | verify =>
      have h : (s.evict i).segState g = (s.setSegState c.seg .unseen).segState g := by
        rw [evict_verify hc hrole]
        rfl
      rw [h, segState_setSegState]
      split
      · next he => rw [← he, hg]; rfl
      · exact hg
    | patrol =>
      obtain ⟨_, _, _, hframe⟩ := s.unfed_frame c
      rw [evict_patrol hc hrole, hframe]
      exact hg

/-- The proof of an UNSEEN segment begins in a free context with its first byte (R102). -/
theorem startProof_moves {i g : Nat} (hi : i < s.pool.slots.length) (hfree : s.pool.context i = none)
    (hg : s.segState g = some .unseen) (b : Byte) : Moves R H s (s.startProof i g b) :=
  .one (.pool _ _ (.grant s i ⟨g, .verify, 1, s.time, .nothing, Sha.fresh.push b⟩ hi hfree rfl
    (by decide : 1 < segmentBytes) hg))

theorem allocate_moves {g : Nat} (hg : s.segState g = some .unseen) (b : Byte) :
    Moves R H s (s.allocate g b) := by
  cases hfree : s.pool.freeSlot with
  | some i =>
    obtain ⟨hi, hnone⟩ := Pool.freeSlot_some hfree
    rw [allocate_of_free hfree]
    exact startProof_moves hi hnone hg b
  | none =>
    cases hv : s.victim with
    | none => simp only [allocate, allocationSlot, hfree, hv]; exact .refl
    | some i =>
      obtain ⟨c, hc⟩ := victim_some hv
      have hi : i < s.pool.slots.length := Pool.lt_length_of_context hc
      rw [allocate_of_full hfree hv]
      refine (s.evict_moves i).trans (startProof_moves ?_ ?_ (evict_unseen hg i) b)
      · rwa [evict_slots hc, List.length_set]
      · simp [Pool.context, evict_slots hc, hi]

theorem byteRule_moves (hat : R → s.power.settle = none ∧ s.lines.rst = false) (g offset : Nat) (b : Byte) :
    Moves R H s (s.byteRule g offset b) := by
  unfold byteRule
  split
  case h_1 hunseen =>
    split
    · exact allocate_moves hunseen b
    · exact .refl
  case h_2 =>
    split
    · exact .refl
    · split
      · exact .refl
      · split
        · exact extend_moves hat _ b _
        · exact .refl
  all_goals exact .refl

theorem reportByte_moves (hat : R → s.power.settle = none ∧ s.lines.rst = false) (flat : Nat) (b : Byte) :
    Moves R H s (s.reportByte flat b) := by
  have hquiet : ((s.touch (flat / segmentBytes)).openRecord (flat / segmentBytes)
      (flat % segmentBytes)).lawView = s.lawView := by simp
  exact (Moves.quiet hquiet).trans (byteRule_moves (fun hR => calm_of_lawView hquiet (hat hR)) _ _ b)

theorem judgeGap_moves (s : State) : Moves R H s s.judgeGap := by
  unfold judgeGap
  dsimp only
  split
  · exact .refl
  · split
    case isTrue hmark =>
      refine Moves.trans (Moves.quiet (t := { s with pool := { s.pool with record := none } }) rfl) ?_
      exact .one (.pool _ _ (.append _ _ hmark.2))
    case isFalse => exact .quiet rfl

/-! ### The engine -/

theorem startFill_moves (hfits : s.control.phase = .run ∧ s.power.state = .active) {g : Nat}
    (hg : s.segState g = some .unseen) : Moves R H s (s.startFill g) := by
  unfold startFill
  split
  · exact .refl
  · next i hfree =>
    obtain ⟨hi, hnone⟩ := Pool.freeSlot_some hfree
    exact ((Moves.one (.pool _ _ (.grant s i (freshContext g .verify .fetch s.time) hi hnone rfl
      (by decide : 0 < segmentBytes) hg))).trans (purgeGap_moves _ g)).trans
        (startRead_moves fun _ => ⟨rfl, hfits⟩)

theorem resume_moves (hfits : s.control.phase = .run ∧ s.power.state = .active) (i : Nat) :
    Moves R H s (s.resume i) := by
  unfold resume
  split
  · exact .refl
  · next c hc =>
    have hfed := Moves.one (R := R) (H := H) (.pool _ _ (.change s i c { c with source := .fetch } hc rfl rfl id))
    dsimp only
    split
    · exact (hfed.trans (purgeGap_moves _ c.seg)).trans (startRead_moves fun _ => ⟨rfl, hfits⟩)
    · exact hfed.trans (startRead_moves fun _ => ⟨rfl, hfits⟩)

theorem freePatrol_moves {i : Nat} {c : Context} (hc : s.pool.context i = some c) (hrole : c.role = .patrol) :
    Moves R H s (s.freePatrol i) := by
  unfold freePatrol
  rw [hc]
  exact (Moves.one (.pool _ _ (.releasePatrol s i c hc hrole))).then_quiet rfl

theorem startPatrol_moves (hfits : s.control.phase = .run ∧ s.power.state = .active) {g : Nat}
    (hg : s.segState g = some .verified) (hnone : s.pool.patrolSlot = none) : Moves R H s (s.startPatrol g) := by
  unfold startPatrol
  split
  · exact .refl
  · next i hfree =>
    obtain ⟨hi, hcontext⟩ := Pool.freeSlot_some hfree
    refine Moves.trans ?_ (startRead_moves fun _ => ⟨rfl, hfits⟩)
    exact (Moves.one (.pool _ _ (.grantPatrol s i (freshContext g .patrol .fetch s.time) hi hcontext hnone rfl
      (by decide : 0 < segmentBytes) hg))).then_quiet rfl

theorem gapCandidate_cases {g : Nat} {x : Candidacy} (h : s.gapCandidate g = some x) :
    x = .fill g ∨ ∃ i, x = .resumeFill i := by
  unfold gapCandidate at h
  split at h
  case isFalse => cases h
  case isTrue =>
    split at h
    case h_1 =>
      split at h
      · split at h
        · exact .inr ⟨_, (Option.some.inj h).symm⟩
        · cases h
      · cases h
    case h_2 =>
      split at h
      · exact .inl (Option.some.inj h).symm
      · cases h
    all_goals cases h

theorem sweepCandidate_cases {x : Candidacy} (h : s.sweepCandidate = some x) : ∃ g, x = .fill g := by
  unfold sweepCandidate at h
  split at h
  · obtain ⟨g, -, rfl⟩ := Option.map_eq_some_iff.1 h
    exact ⟨g, rfl⟩
  · cases h

theorem liveCandidate_cases {x : Candidacy} (h : s.liveCandidate = some x) : ∃ i, x = .resumeFill i := by
  obtain ⟨e, -, rfl⟩ := Option.map_eq_some_iff.1 h
  exact ⟨_, rfl⟩

theorem patrolResumption_cases {x : Candidacy} (h : s.patrolResumption = some x) :
    ∃ i, s.pool.patrolSlot = some i ∧ (x = .freePatrol i ∨ x = .resumePatrol i) := by
  unfold patrolResumption at h
  split at h
  · cases h
  · next i hi =>
    refine ⟨i, hi, ?_⟩
    split at h
    · exact .inl (Option.some.inj h).symm
    · split at h
      · split at h
        · exact .inr (Option.some.inj h).symm
        · cases h
      · cases h

theorem smallest_eq_min? (l : List Nat) : smallest l = l.min? := by
  have hfold : ∀ (l : List Nat) (a : Nat), l.foldl minOption (some a) = some (l.foldl min a) := by
    intro l
    induction l with
    | nil => exact fun _ => rfl
    | cons b l ih => exact fun a => ih (min a b)
  cases l with
  | nil => rfl
  | cons a l => exact (hfold l a).trans List.min?_cons'.symm

theorem smallest_eq_some_iff {l : List Nat} {g : Nat} : smallest l = some g ↔ g ∈ l ∧ ∀ x ∈ l, g ≤ x := by
  rw [smallest_eq_min?, List.min?_eq_some_iff]

/-- The segment that the patrol starts next is eligible (R131). -/
theorem patrolNext_eligible {g : Nat} (h : s.patrolNext = some g) : s.patrolEligible g = true := by
  have hmem : g ∈ (s.segments.map (·.seg)).filter s.patrolEligible := by
    unfold patrolNext at h
    dsimp only at h
    split at h
    · next hfirst =>
      cases h
      exact (List.mem_filter.1 (smallest_eq_some_iff.1 hfirst).1).1
    · exact (smallest_eq_some_iff.1 h).1
  exact (List.mem_filter.1 hmem).2

theorem patrolStart_cases {x : Candidacy} (h : s.patrolStart = some x) :
    ∃ g, x = .startPatrol g ∧ s.segState g = some .verified ∧ s.pool.patrolSlot = none := by
  unfold patrolStart at h
  split at h
  · next hready =>
    obtain ⟨-, -, -, hslot, -⟩ := hready
    split at h
    · next g hg =>
      split at h
      · have heligible := patrolNext_eligible hg
        simp only [patrolEligible, Bool.and_eq_true, decide_eq_true_eq] at heligible
        exact ⟨g, (Option.some.inj h).symm, heligible.1, hslot⟩
      · cases h
    · cases h
  · cases h

/-- What the candidate of a patrol segment start rests on (R131). -/
theorem patrol_of_candidate_startPatrol {g : Nat} (h : s.candidate = .startPatrol g) :
    s.segState g = some .verified ∧ s.pool.patrolSlot = none := by
  rcases s.candidate_cases with hc | hc | hc | hc | hc | hc <;> rw [h] at hc
  · cases hc
  · obtain ⟨k, -, hk⟩ := List.exists_of_findSome?_eq_some hc
    rcases gapCandidate_cases hk with hx | ⟨i, hx⟩ <;> cases hx
  · obtain ⟨i, hx⟩ := liveCandidate_cases hc
    cases hx
  · obtain ⟨g, hx⟩ := sweepCandidate_cases hc
    cases hx
  · obtain ⟨i, -, hx | hx⟩ := patrolResumption_cases hc <;> cases hx
  · obtain ⟨g, hx, hg⟩ := patrolStart_cases hc
    cases hx
    exact hg

/-- What the candidate of a patrol context to be freed rests on (R132). -/
theorem patrolSlot_of_candidate_freePatrol {i : Nat} (h : s.candidate = .freePatrol i) :
    s.pool.patrolSlot = some i := by
  rcases s.candidate_cases with hc | hc | hc | hc | hc | hc <;> rw [h] at hc
  · cases hc
  · obtain ⟨k, -, hk⟩ := List.exists_of_findSome?_eq_some hc
    rcases gapCandidate_cases hk with hx | ⟨i, hx⟩ <;> cases hx
  · obtain ⟨i, hx⟩ := liveCandidate_cases hc
    cases hx
  · obtain ⟨g, hx⟩ := sweepCandidate_cases hc
    cases hx
  · obtain ⟨j, hj, hx | hx⟩ := patrolResumption_cases hc <;> cases hx
    exact hj
  · obtain ⟨g, hx, -⟩ := patrolStart_cases hc
    cases hx

theorem judgeWith_moves (n : Nat) (s : State) : Moves R H s (State.judgeWith n s) := by
  induction n generalizing s with
  | zero => exact .refl
  | succ n ih =>
    unfold State.judgeWith
    split
    case isFalse => exact .refl
    case isTrue hfree =>
      have hfits : s.control.phase = .run ∧ s.power.state = .active := by
        simp only [engineFree, Bool.and_eq_true, decide_eq_true_eq] at hfree
        exact hfree.1
      split
      case h_1 hc => exact startFill_moves hfits (unseen_of_candidate_fill hc)
      case h_2 => exact resume_moves hfits _
      case h_3 => exact resume_moves hfits _
      case h_4 hc =>
        obtain ⟨c, hcontext, hrole⟩ := Pool.patrolSlot_some (patrolSlot_of_candidate_freePatrol hc)
        exact (freePatrol_moves hcontext hrole).trans (ih _)
      case h_5 hc =>
        obtain ⟨hg, hnone⟩ := patrol_of_candidate_startPatrol hc
        exact startPatrol_moves hfits hg hnone
      case h_6 => exact .refl

theorem judge_moves (s : State) : Moves R H s s.judge := judgeWith_moves 2 s

theorem judgeIfConfirmed_moves (s before : State) : Moves R H s (s.judgeIfConfirmed before) := by
  unfold judgeIfConfirmed
  split
  · exact s.judge_moves
  · exact .refl

theorem settleGates_moves (s : State) : Moves R H s s.settleGates := .one (.settle s)

end State
end Sys2Proof.Machine
end

section
/-!
The commands of authentication, of the upstream port and of the engine as chains of moves. `R` and `H` are the
read law and the law of HALTED of the state in which the command begins.
-/
namespace Sys2Proof.Machine
variable {R H : Prop} {s : State}

namespace State

/-! ### What the laws say of the circumstances -/

theorem readLaw.of_lawView {t : State} (hs : s.readLaw) (h : t.lawView = s.lawView) : t.readLaw := by
  have hview : t.lawView.readLaw := h ▸ (show s.lawView.readLaw from hs)
  exact hview

theorem readLaw.of_hold (h : s.readLaw) (hhold : s.control.phase = .hold) : s.power.settle = none := by
  obtain ⟨-, -, hsettle⟩ := h
  refine Option.not_isSome_iff_eq_none.1 fun hrunning => ?_
  rcases (hsettle hrunning).2 with hp | hp <;> rw [hhold] at hp <;> cases hp

theorem readLaw.of_active (h : s.readLaw) (hactive : s.power.state = .active) : s.power.settle = none := by
  obtain ⟨-, -, hsettle⟩ := h
  refine Option.not_isSome_iff_eq_none.1 fun hrunning => ?_
  have hwaking := (hsettle hrunning).1
  rw [hactive] at hwaking
  cases hwaking

theorem readLaw.rst_of_read (h : s.readLaw) {r : FetchRead} (hread : s.engine.read = some r) :
    s.lines.rst = false := by
  obtain ⟨-, hrst, -⟩ := h
  refine Bool.eq_false_iff.2 fun hheld => ?_
  rw [(hrst hheld).2] at hread
  cases hread

theorem readLaw.rst_of_run (h : s.readLaw) (hrun : s.control.phase ≠ .hold) : s.lines.rst = false :=
  Bool.eq_false_iff.2 fun hheld => hrun (h.2.1 hheld).1

/-- A MANIFEST read is made in HOLD (R120). -/
theorem readLaw.hold_of_manifest (h : s.readLaw) {r : FetchRead} (hread : s.engine.read = some r)
    (hkind : r.kind.job = .manifest) : s.control.phase = .hold := by
  have hphase := (h.1 r hread).2
  rwa [hkind] at hphase

/-- A FILL or PATROL read is made in RUN and ACTIVE (R120). -/
theorem readLaw.run_of_fetch (h : s.readLaw) {r : FetchRead} (hread : s.engine.read = some r)
    (hkind : r.kind.job = .fill ∨ r.kind.job = .patrol) :
    s.control.phase = .run ∧ s.power.state = .active := by
  have hphase := (h.1 r hread).2
  rcases hkind with hk | hk <;> rwa [hk] at hphase

/-- A WAKE read is made in RUN and WAKING (R120). -/
theorem readLaw.run_of_wake (h : s.readLaw) {r : FetchRead} (hread : s.engine.read = some r)
    (hkind : r.kind.job = .wake) : s.control.phase = .run ∧ s.power.state = .waking := by
  have hphase := (h.1 r hread).2
  rwa [hkind] at hphase

/-- Outside ACTIVE and WAKING, and in RECOVERY, no read is in progress but in HOLD. -/
theorem readLaw.read_none (h : s.readLaw) (hhold : s.control.phase ≠ .hold)
    (hpower : (s.power.state ≠ .active ∧ s.power.state ≠ .waking) ∨ s.control.phase ≠ .run) :
    s.engine.read = none := by
  cases hread : s.engine.read with
  | none => rfl
  | some r =>
    have hphase := (h.1 r hread).2
    split at hphase
    · exact absurd hphase hhold
    · exact hpower.elim (fun hp => absurd hphase.2 hp.1) (absurd hphase.1)
    · exact hpower.elim (fun hp => absurd hphase.2 hp.1) (absurd hphase.1)
    · exact hpower.elim (fun hp => absurd hphase.2 hp.2) (absurd hphase.1)
    · exact hphase.elim

/-- In ENTERING_DOZE no read is in progress but in HOLD, and the settle timer is stopped (R120, R187). -/
theorem readLaw.idle_of_enteringDoze (h : s.readLaw) (hdozing : s.power.state = .enteringDoze) :
    (s.engine.read = none ∨ s.control.phase = .hold) ∧ s.power.settle = none := by
  refine ⟨?_, Option.not_isSome_iff_eq_none.1 fun hrunning => ?_⟩
  · by_cases hhold : s.control.phase = .hold
    · exact .inr hhold
    · exact .inl (h.read_none hhold (.inl (by simp [hdozing])))
  · have hwaking := (h.2.2 hrunning).1
    rw [hdozing] at hwaking
    cases hwaking

theorem haltedLaw.awake_of_transaction (h : s.haltedLaw) (ht : s.transaction ≠ none) :
    s.control.phase ≠ .halted := by
  intro hp
  obtain ⟨-, -, -, -, -, hnone, -⟩ := h hp
  exact ht hnone

theorem haltedLaw.awake_of_advance (h : s.haltedLaw) (ha : s.advance ≠ []) : s.control.phase ≠ .halted := by
  intro hp
  obtain ⟨-, -, -, -, -, -, -, -, hnone, -⟩ := h hp
  exact ha hnone

theorem haltedLaw.awake_of_timer (h : s.haltedLaw) (ht : s.gates.timer ≠ none) : s.control.phase ≠ .halted := by
  intro hp
  obtain ⟨-, -, -, -, -, -, -, -, -, -, -, hnone, -⟩ := h hp
  exact ht hnone

theorem haltedLaw.awake_of_deadline (h : s.haltedLaw) (hd : s.gates.deadline ≠ .disarmed) :
    s.control.phase ≠ .halted := by
  intro hp
  obtain ⟨-, -, -, -, -, -, -, -, -, -, -, -, hnone, -⟩ := h hp
  exact hd hnone

theorem awake_of_listening (h : s.listening = true) : s.control.phase ≠ .halted := by
  intro hp
  simp [listening, hp] at h

/-! ### Authentication -/

theorem reject_moves (s : State) (a : Anchor) (reason : RejectReason) (cls : Nat) :
    Moves R H s (s.reject a reason cls) := .one (.push s ..)

/-- What authentication in HOLD rests on: nothing runs, and reset is released. -/
def inHold (s : State) : Prop :=
  s.control.phase = .hold ∧ s.power.settle = none ∧ s.lines.rst = false

theorem readLaw.inHold_of_manifest (h : s.readLaw) {r : FetchRead} (hread : s.engine.read = some r)
    (hkind : r.kind.job = .manifest) : s.inHold :=
  ⟨h.hold_of_manifest hread hkind, h.of_hold (h.hold_of_manifest hread hkind), h.rst_of_read hread⟩

theorem inHold.awake (h : s.inHold) : s.control.phase ≠ .halted := by
  simp [h.1]

theorem inHold.of_fields {t : State} (h : s.inHold) (hcontrol : t.control.phase = s.control.phase)
    (hpower : t.power = s.power) (hlines : t.lines = s.lines) : t.inHold := by
  unfold inHold
  rw [hcontrol, hpower, hlines]
  exact h

theorem inHold.reject (h : s.inHold) (a : Anchor) (reason : RejectReason) (cls : Nat) :
    (s.reject a reason cls).inHold :=
  h.of_fields (by simp [State.reject]) (by simp [State.reject]) (by simp [State.reject])

theorem inHold.closeRead (h : s.inHold) : s.closeRead.inHold := by
  obtain ⟨_, _, hframe⟩ := s.closeRead_frame
  rw [hframe]
  exact h

theorem manifestRead_moves (hat : R → s.inHold) {r : FetchRead} (hkind : r.kind.job = .manifest) :
    Moves R H s (s.startRead .manifest r) :=
  startRead_moves fun hR => by
    obtain ⟨hphase, -, hrst⟩ := hat hR
    exact ⟨hkind.symm, by rw [hkind]; exact ⟨hphase, hrst⟩⟩

theorem recover_moves (hat : R → s.inHold) : Moves R H s s.enterRecovery :=
  .one (.recover s (fun hR => (hat hR).2) fun hR _ => (hat hR).awake)

theorem evaluate_moves (l : List Candidate) (hat : R → s.inHold) : Moves R H s (s.evaluate l) := by
  induction l generalizing s with
  | nil =>
    rw [evaluate_nil]
    refine Moves.trans ?_ (recover_moves fun hR => (hat hR).of_fields (by simp) (by simp) (by simp))
    exact Moves.trans (t := s.setCandidates []) (.quiet rfl) (.one (.push ..))
  | cons c rest ih =>
    cases hr : headerReject s.fuses c.header with
    | some reason =>
      rw [evaluate_reject hr]
      exact (s.reject_moves ..).trans (ih fun hR => (hat hR).reject ..)
    | none =>
      rw [evaluate_pass hr]
      refine Moves.trans (t := s.setCandidates (c :: rest)) (.quiet rfl) (manifestRead_moves ?_ rfl)
      exact hat

theorem takeHeader_moves (s : State) (a : Anchor) (bytes : List Byte) :
    Moves R H s (s.takeHeader a bytes) := by
  unfold takeHeader
  split
  · exact .quiet rfl
  · exact s.reject_moves ..

theorem inHold.takeHeader (h : s.inHold) (a : Anchor) (bytes : List Byte) : (s.takeHeader a bytes).inHold := by
  unfold State.takeHeader
  split
  · exact h
  · exact h.reject ..

theorem headerEnd_moves (hR : R → s.readLaw) (bytes : List Byte) : Moves R H s (s.headerEnd bytes) := by
  unfold headerEnd
  split
  · next hread =>
    have hat (hr : R) : (s.closeRead.takeHeader .primary bytes).inHold :=
      ((hR hr).inHold_of_manifest hread rfl).closeRead.takeHeader ..
    exact (s.closeRead_moves.trans (takeHeader_moves ..)).trans (manifestRead_moves hat rfl)
  · next hread =>
    have hat (hr : R) : (s.closeRead.takeHeader .fallback bytes).inHold :=
      ((hR hr).inHold_of_manifest hread rfl).closeRead.takeHeader ..
    refine Moves.trans ?_ (evaluate_moves _ hat)
    exact (s.closeRead_moves.trans (takeHeader_moves ..)).then_quiet rfl
  · exact .refl

theorem tamperAtEntry_moves (s : State) : Moves R H s s.tamperAtEntry := by
  unfold tamperAtEntry
  split
  · exact (Moves.one (.push s ..)).then_quiet rfl
  · exact .refl

theorem accept_moves (hat : R → s.inHold) (c : Candidate) (copy : CandidateCopy) (d : List Int) :
    Moves R H s (s.accept c copy d) := by
  have hcommit := Moves.one (H := H) (.commit s c copy d fun hR => ⟨(hat hR).1, (hat hR).2.2⟩)
  exact ((hcommit.trans (tamperAtEntry_moves _)).trans (settleGates_moves _)).trans (judge_moves _)

theorem bodyEnd_moves (hR : R → s.readLaw) (bytes : List Byte) : Moves R H s (s.bodyEnd bytes) := by
  unfold bodyEnd
  split
  · next hread _ =>
    split
    · dsimp only
      generalize hu : s.closeRead.setCandidates _ = u
      have hat (hr : R) : u.inHold := hu ▸ ((hR hr).inHold_of_manifest hread rfl).closeRead
      have hrejected (a : Anchor) (reason : RejectReason) (cls : Nat) (rest : List Candidate) :
          Moves R H u ((u.reject a reason cls).evaluate rest) :=
        (u.reject_moves ..).trans (evaluate_moves _ fun hr => (hat hr).reject ..)
      have hclosed : Moves R H s u := hu ▸ s.closeRead_moves.then_quiet rfl
      refine hclosed.trans ?_
      unfold judgeBody
      dsimp only
      split
      · exact hrejected ..
      · split
        · exact hrejected ..
        · split
          · exact hrejected ..
          · exact accept_moves hat ..
    · exact .refl
  · exact .refl

end State

theorem execResetEnd_moves (hR : R → s.readLaw) : nextHas (Moves R H s) (execResetEnd s) := by
  unfold execResetEnd
  split
  case isFalse => exact nextHas_next.2 .refl
  case isTrue hrst =>
    dsimp only
    have hreleased := Moves.one (R := R) (H := H) (.release s)
    have hat (hr : R) : ({ s with lines := { s.lines with rst := false } } : State).inHold :=
      have hhold := ((hR hr).2.1 hrst).1
      ⟨hhold, (hR hr).of_hold hhold, rfl⟩
    split
    · exact nextHas_next.2 (hreleased.trans (.one (.halt _ fun hr => (hat hr).2)))
    · refine nextHas_next.2 ((hreleased.trans (.one (.push ..))).trans (State.recover_moves fun hr => ?_))
      exact (hat hr).of_fields (by simp) (by simp) (by simp)
    · refine nextHas_next.2 (Moves.trans ?_ (State.manifestRead_moves ?_ rfl))
      · exact hreleased.then_quiet rfl
      · exact hat

theorem execIdentityReadEnd_moves (hR : R → s.readLaw) (b0 b1 b2 : Byte) :
    nextHas (Moves R H s) (execIdentityReadEnd b0 b1 b2 s) := by
  unfold execIdentityReadEnd
  split
  · next hread =>
    have hat (hr : R) : s.closeRead.inHold := ((hR hr).inHold_of_manifest hread rfl).closeRead
    refine nextHas_next.2 (Moves.trans ?_ (State.manifestRead_moves ?_ rfl))
    · exact s.closeRead_moves.then_quiet rfl
    · exact hat
  · next hread =>
    have hat (hr : R) : s.closeRead.inHold := ((hR hr).inHold_of_manifest hread rfl).closeRead
    refine nextHas_next.2 (Moves.trans ?_ (State.manifestRead_moves ?_ rfl))
    · exact s.closeRead_moves.then_quiet rfl
    · exact hat
  · exact nextHas_next.2 .refl

end Sys2Proof.Machine
end

section
/-!
The commands of the upstream port and the requests as chains of moves.
-/
namespace Sys2Proof.Machine
variable {R H : Prop} {s : State}

/-- Fuses that do not change grow (R24). -/
theorem Fuses.grow_refl (f : Fuses) : f.grow f :=
  ⟨rfl, rfl, rfl, rfl, rfl, rfl, rfl, fun _ h => h, fun _ _ h => h⟩

namespace State

/-! ### The upstream port -/

theorem setTransaction_moves (hawake : R → H → s.control.phase ≠ .halted) (t : Transaction) :
    Moves R H s (s.setTransaction t) := .one (.transaction s _ hawake)

theorem forward_moves (hawake : R → H → s.control.phase ≠ .halted) (t : Transaction) :
    Moves R H s (s.forward t) := by
  refine Moves.trans (.quiet (s.setPort_lawView ..)) (setTransaction_moves ?_ _)
  simpa using hawake

theorem startWaking_moves (hR : R → s.readLaw) (hdoze : s.power.state = .doze)
    (hlistening : s.control.phase = .run ∨ s.control.phase = .recovery) : Moves R H s s.startWaking := by
  refine .one (.power s _ (fun hr => .inr (.inl ((hR hr).read_none ?_ (.inl (by simp [hdoze]))))) fun _ _ => ?_)
  · rcases hlistening with hp | hp <;> simp [hp]
  · exact ⟨rfl, hlistening⟩

theorem setSlot_none_of_free {i : Nat} (h : s.pool.context i = none) : s.setSlot i none = s := by
  have hslots : s.pool.slots.set i none = s.pool.slots := by
    rcases Nat.lt_or_ge i s.pool.slots.length with hi | hi
    · rw [Pool.context_of_lt hi] at h
      rw [← h, List.set_getElem_self]
    · exact List.set_eq_of_length_le hi
  unfold setSlot
  rw [hslots]

theorem unfeed_moves (s : State) (i : Nat) : Moves R H s
    (s.setSlot i ((s.pool.context i).map fun c => { c with source := .nothing })) := by
  cases hc : s.pool.context i with
  | none =>
    rw [Option.map_none, setSlot_none_of_free hc]
    exact .refl
  | some c => exact .one (.pool _ _ (.change s i c _ hc rfl rfl id))

theorem abortFill_moves (s : State) (p : Port) : Moves R H s (s.abortFill p) := by
  unfold abortFill
  split
  · exact .refl
  · split
    · split
      · exact (s.unfeed_moves _).trans (endRead_moves _)
      · exact (s.unfeed_moves _).trans (endRead_moves _)
      all_goals exact .refl
    · exact .refl

@[simp] theorem abortFill_control (s : State) (p : Port) : (s.abortFill p).control = s.control := by
  have hended (t : State) : t.endRead.control = t.control := by
    obtain ⟨_, _, h⟩ := t.endRead_frame
    rw [h]
  unfold abortFill
  split
  · rfl
  · split
    · split
      · exact hended _
      · exact hended _
      all_goals rfl
    · rfl

theorem selectPort_moves (hR : R → s.readLaw) (hlistening : s.listening = true) (p : Port) :
    Moves R H s (s.selectPort p) := by
  have hphase : s.control.phase = .run ∨ s.control.phase = .recovery := by
    simpa [listening] using hlistening
  have hcontrol : (if s.power.state = .doze then s.startWaking else s).control = s.control := by
    split <;> rfl
  have hawake : Moves R H s (if s.power.state = .doze then s.startWaking else s) := by
    split
    · next hdoze => exact startWaking_moves hR hdoze hphase
    · exact .refl
  unfold selectPort
  dsimp only
  refine Moves.trans ?_ (judge_moves _)
  have haborted (q : PortState) := (hawake.trans (abortFill_moves _ p)).then_quiet (setPort_lawView _ p q)
  split
  · refine (haborted _).trans (setTransaction_moves (fun _ _ => ?_) _)
    rw [setPort_control, abortFill_control, hcontrol]
    exact awake_of_listening hlistening
  · exact haborted _

theorem endForward_moves (s : State) (t : Transaction) : Moves R H s (s.endForward t) := by
  unfold endForward
  dsimp only
  split
  case h_3 =>
    split
    · exact Moves.trans (.quiet (s.setPort_lawView ..)) (judgeGap_moves _)
    · exact .quiet (s.setPort_lawView ..)
  all_goals exact .quiet (s.setPort_lawView ..)

theorem endTransaction_moves (hawake : R → H → s.control.phase ≠ .halted) (p : Port) :
    Moves R H s (s.endTransaction p) := by
  have hclosed := Moves.one (.transaction s none hawake)
  unfold endTransaction
  split
  · exact .refl
  · split
    · dsimp only
      split
      · exact hclosed.trans (endForward_moves _ _)
      · split
        · exact hclosed.then_quiet rfl
        all_goals exact hclosed
      all_goals exact hclosed
    · exact .refl

theorem deselectPort_moves (hawake : R → H → s.control.phase ≠ .halted) (p : Port) :
    Moves R H s (s.deselectPort p) :=
  ((endTransaction_moves hawake p).then_quiet (setPort_lawView ..)).trans (judge_moves _)

theorem blockCommand_moves (hawake : R → H → s.control.phase ≠ .halted) (t : Transaction) (b : Byte) :
    Moves R H s (s.blockCommand t b) := by
  refine Moves.trans ?_ (settleGates_moves _)
  exact ((setTransaction_moves hawake _).trans (.one (.push ..))).then_quiet (raise_lawView ..)

theorem denyWrite_moves (hawake : R → H → s.control.phase ≠ .halted) (t : Transaction) (b : Byte) (g : Nat) :
    Moves R H s (s.denyWrite t b g) := by
  refine Moves.trans ?_ (settleGates_moves _)
  exact ((setTransaction_moves hawake _).trans (.one (.push ..))).then_quiet
    ((raise_lawView ..).trans (tripDenied_lawView ..))

theorem judgeWrite_moves (hawake : R → H → s.control.phase ≠ .halted) (t : Transaction) (e : ClassEntry)
    (b : Byte) : Moves R H s (s.judgeWrite t e b) := by
  have hforward := forward_moves hawake t
  unfold judgeWrite
  dsimp only
  split
  · exact denyWrite_moves hawake ..
  · split
    · exact ((hforward.trans (.one (.pool _ _ (.mark ..)))).trans (settleGates_moves _)).trans (judge_moves _)
    · exact hforward

theorem disposeListed_moves (hawake : R → H → s.control.phase ≠ .halted) (t : Transaction) (e : ClassEntry)
    (b : Byte) : Moves R H s (s.disposeListed t e b) := by
  have hwrite : Moves R H s (if t.addressLength = 0 then s.judgeWrite t e b
      else s.setTransaction { t with disposition := .pending }) := by
    split
    · exact judgeWrite_moves hawake ..
    · exact setTransaction_moves hawake _
  unfold disposeListed
  split
  case h_5 => exact blockCommand_moves hawake ..
  case h_6 => exact hwrite
  case h_7 => exact hwrite
  all_goals exact forward_moves hawake t

theorem takeCommand_moves (hawake : R → H → s.control.phase ≠ .halted) (t : Transaction) (b : Byte) :
    Moves R H s (s.takeCommand t b) := by
  unfold takeCommand
  dsimp only
  split
  · exact setTransaction_moves hawake _
  · split
    · split
      · exact setTransaction_moves hawake _
      · split
        · exact forward_moves hawake _
        · exact blockCommand_moves hawake ..
    · split
      · exact setTransaction_moves hawake _
      · exact disposeListed_moves hawake ..

theorem takeAddress_moves (hawake : R → H → s.control.phase ≠ .halted) (t : Transaction) (bytes : List Byte) :
    Moves R H s (s.takeAddress t bytes) := by
  unfold takeAddress
  dsimp only
  split
  · exact judgeWrite_moves hawake ..
  · exact setTransaction_moves hawake _

theorem countByte_moves (hawake : R → H → s.control.phase ≠ .halted) (t : Transaction) :
    Moves R H s (s.countByte t) := setTransaction_moves hawake _

/-- A data byte is delivered and counted (R9, R20). -/
theorem deliverByte_moves (hawake : R → H → s.control.phase ≠ .halted) (d : Byte) (t : Transaction) :
    Moves R H s ((s.deliver d).countByte t) := by
  refine Moves.trans (t := s.deliver d) (.quiet rfl) (countByte_moves ?_ t)
  exact hawake

theorem deliverRead_moves (hR : R → s.readLaw) (hawake : R → H → s.control.phase ≠ .halted) (t : Transaction)
    (b : Byte) : Moves R H s (s.deliverRead t b) := by
  unfold deliverRead
  dsimp only
  split
  case isTrue h =>
    refine Moves.trans ?_ (judge_moves _)
    refine Moves.trans ?_ (settleGates_moves _)
    refine (deliverByte_moves hawake _ t).trans (reportByte_moves (fun hr => ?_) _ b)
    exact ⟨(hR hr).of_active h.2, (hR hr).rst_of_run (by simp [h.1])⟩
  case isFalse => exact deliverByte_moves hawake _ t

end State

theorem execUpstreamCsAssert_moves (hR : R → s.readLaw) (p : Port) :
    nextHas (Moves R H s) (execUpstreamCsAssert p s) := by
  unfold execUpstreamCsAssert
  split
  · exact nextHas_next.2 .refl
  · refine nextHas_next.2 ?_
    have hlevel := State.setPort_lawView s p { s.port p with upstream := true }
    dsimp only
    split
    · next hlistening =>
      exact (Moves.quiet hlevel).trans
        (State.selectPort_moves (fun hr => (hR hr).of_lawView hlevel) hlistening p)
    · exact .quiet hlevel

theorem execUpstreamCsDeassert_moves (p : Port) : nextHas (Moves R H s) (execUpstreamCsDeassert p s) := by
  unfold execUpstreamCsDeassert
  split
  · refine nextHas_next.2 ?_
    have hlevel := State.setPort_lawView s p { s.port p with upstream := false }
    dsimp only
    split
    · next hlistening =>
      exact (Moves.quiet hlevel).trans
        (State.deselectPort_moves (fun _ _ => State.awake_of_listening hlistening) p)
    · exact .quiet hlevel
  · exact nextHas_next.2 .refl

theorem awake_of_open (hH : H → s.haltedLaw) {t : Transaction} (h : s.transaction = some t) :
    R → H → s.control.phase ≠ .halted :=
  fun _ hh => (hH hh).awake_of_transaction (by simp [h])

theorem execCommandByte_moves (hH : H → s.haltedLaw) (b : Byte) :
    nextHas (Moves R H s) (execCommandByte b s) := by
  unfold execCommandByte
  split
  · exact nextHas_next.2 .refl
  · next t ht =>
    refine nextHas_next.2 ?_
    split
    · exact State.takeCommand_moves (awake_of_open hH ht) ..
    · exact .refl

theorem execAddressComplete_moves (hH : H → s.haltedLaw) (bytes : List Byte) :
    nextHas (Moves R H s) (execAddressComplete bytes s) := by
  refine nextHas_whenWellFormed ?_ _
  split
  · exact .refl
  · next t ht =>
    split
    · exact State.takeAddress_moves (awake_of_open hH ht) ..
    · exact .refl

theorem execReadDataByte_moves (hR : R → s.readLaw) (hH : H → s.haltedLaw) (b : Byte) :
    nextHas (Moves R H s) (execReadDataByte b s) := by
  unfold execReadDataByte
  split
  · exact nextHas_next.2 .refl
  · next t ht =>
    have hawake := awake_of_open (R := R) hH ht
    split
    · split
      case h_1 => exact nextHas_next.2 .refl
      case h_2 => exact nextHas_next.2 .refl
      case h_3 => exact nextHas_next.2 (State.deliverByte_moves hawake ..)
      case h_4 => exact nextHas_next.2 (State.deliverByte_moves hawake ..)
      case h_5 =>
        refine nextHas_next.2 ?_
        split
        · exact State.deliverRead_moves hR hawake ..
        · exact State.deliverByte_moves hawake ..
    · split
      · exact nextHas_next.2 (.quiet rfl)
      · exact nextHas_next.2 .refl

namespace State

/-! ### The requests -/

theorem setChannel_moves (hawake : R → H → s.control.phase ≠ .halted) (c : Channel) :
    Moves R H s (s.setChannel c) := .one (.transaction s _ hawake)

theorem reply_lawView (s : State) (tag code : Byte) (st : Status) (data : List Byte) :
    (s.reply tag code st data).lawView = s.lawView := rfl

theorem reply_moves (s : State) (tag code : Byte) (st : Status) (data : List Byte) :
    Moves R H s (s.reply tag code st data) := .quiet (s.reply_lawView ..)

theorem channel_some {c : Channel} (h : s.channel = some c) : s.transaction ≠ none := by
  intro hnone
  simp [channel, hnone] at h

/-- What the part knows when it takes a request: an open transaction, so that it is not HALTED. -/
structure TakesRequests (R H : Prop) (s : State) : Prop where
  law : R → s.readLaw
  awake : R → H → s.control.phase ≠ .halted

theorem TakesRequests.of_open (hR : R → s.readLaw) (hH : H → s.haltedLaw) {c : Channel}
    (h : s.channel = some c) : TakesRequests R H s :=
  ⟨hR, fun _ hh => (hH hh).awake_of_transaction (channel_some h)⟩

theorem TakesRequests.setChannel (h : TakesRequests R H s) (c : Channel) : TakesRequests R H (s.setChannel c) :=
  ⟨h.law, h.awake⟩

/-- What a taken request does decides; every other end of a request is a reply at most (R174). -/
theorem request_moves (hR : R → s.readLaw) (hH : H → s.haltedLaw) (code tag : Byte) (n : Nat)
    {f : State → State} (hf : ∀ u, TakesRequests R H u → Moves R H u (f u)) :
    Moves R H s (s.request code tag n f) := by
  cases hc : s.channel with
  | none =>
    rw [request_of_none hc]
    exact .refl
  | some c =>
    have hopen := TakesRequests.of_open hR hH hc
    have hdone := setChannel_moves hopen.awake .done
    rcases s.request_cases code tag n f with h | h | ⟨st, h⟩ | h <;> rw [h]
    · exact .refl
    · exact hdone
    · exact hdone.trans (reply_moves ..)
    · exact hdone.trans (hf _ (hopen.setChannel .done))

theorem takeVerdicts_moves (s : State) (tag mask0 mask1 format : Byte) :
    Moves R H s (s.takeVerdicts tag mask0 mask1 format) := by
  unfold takeVerdicts
  split
  · exact reply_moves ..
  · split <;> exact reply_moves ..

theorem takeFaultRead_moves (s : State) (tag depth : Byte) : Moves R H s (s.takeFaultRead tag depth) := by
  unfold takeFaultRead
  split <;> exact reply_moves ..

theorem takeFaultAck_moves (h : TakesRequests R H s) (tag : Byte) : Moves R H s (s.takeFaultAck tag) := by
  unfold takeFaultAck
  split
  · exact reply_moves ..
  · next r rest hfaults =>
    exact (Moves.one (.acknowledge s r rest hfaults h.awake)).trans (reply_moves ..)

theorem takeRearm_moves (s : State) (tag gates : Byte) : Moves R H s (s.takeRearm tag gates) := by
  unfold takeRearm
  split
  · refine Moves.trans ?_ (reply_moves ..)
    refine Moves.trans ?_ (judgeIfConfirmed_moves ..)
    exact Moves.trans (t := s.clearLatches _ _) (.quiet rfl) (settleGates_moves _)
  · exact reply_moves ..

theorem takeForceOff_moves (s : State) (tag gates : Byte) : Moves R H s (s.takeForceOff tag gates) := by
  refine Moves.trans ?_ (reply_moves ..)
  exact Moves.trans (t := s.latchGates _ _) (.quiet rfl) (settleGates_moves _)

theorem takeSettings_moves (h : TakesRequests R H s) (tag : Byte) (new : Settings) :
    Moves R H s (s.takeSettings tag new) := by
  unfold takeSettings
  split
  · exact reply_moves ..
  · exact ((Moves.one (.settings s new h.awake)).trans (judge_moves _)).trans (reply_moves ..)

theorem takeLock_moves (s : State) (tag : Byte) : Moves R H s (s.takeLock tag) :=
  (Moves.one (.lock s)).trans (reply_moves ..)

theorem takeFillMask_moves (s : State) (tag mask0 mask1 : Byte) :
    Moves R H s (s.takeFillMask tag mask0 mask1) := by
  refine Moves.trans ?_ (reply_moves ..)
  refine Moves.trans ?_ (judge_moves _)
  exact .quiet rfl

/-- Doze entry completes in the conditions of ENTERING_DOZE, and elsewhere it does nothing (R186). -/
theorem completeDoze_moves
    (hat : R → s.power.state = .enteringDoze →
      (s.engine.read = none ∨ s.control.phase = .hold) ∧ s.power.settle = none)
    (hawake : R → H → s.control.phase ≠ .halted) : Moves R H s s.completeDoze := by
  unfold completeDoze
  split
  case isTrue h =>
    have hdown : Moves R H s { s with power := { s.power with state := .doze, fpwr := false } } :=
      .one (.power s _ (fun hr => .inr (hat hr h.1).1) fun hr hrunning => by
        rw [show s.power.settle = none from (hat hr h.1).2] at hrunning
        cases hrunning)
    refine (hdown.trans (.one (.transaction _ none ?_))).then_quiet ?_
    · exact hawake
    · rfl
  case isFalse => exact .refl

/-- The gates' moves leave the power state and the read in progress. -/
theorem settleGates_power_read (s : State) :
    s.settleGates.power = s.power ∧ s.settleGates.engine.read = s.engine.read ∧
      s.settleGates.control.phase = s.control.phase := by
  obtain ⟨_, _, _, _, _, _, _, _, _, _, h⟩ := s.settleGates_frame
  rw [h]
  exact ⟨rfl, rfl, rfl⟩

/-- ENTERING_DOZE begins: the power state, and every context discarded (R185, R117). -/
theorem beginDoze_moves (hread : s.engine.read = none) (hsettle : R → s.power.settle = none) :
    Moves R H s { s with
      power := { s.power with state := .enteringDoze }
      segments := discardedSegments s.segments s.pool
      engine := { s.engine with cursor := cursorAfterDiscard s.pool s.engine.cursor }
      pool := Pool.afterReset } := by
  have hpower : Moves R H s { s with power := { s.power with state := .enteringDoze } } :=
    .one (.power s _ (fun _ => .inr (.inl hread)) fun hr hrunning => by
      rw [show s.power.settle = none from hsettle hr] at hrunning
      cases hrunning)
  exact (hpower.trans (.one (.pool _ _ (.discard _)))).then_quiet rfl

theorem enterDoze_moves (h : TakesRequests R H s) (hactive : s.power.state = .active) :
    Moves R H s s.enterDoze := by
  obtain ⟨a, b, hframe⟩ := s.endRead_frame
  have hread : s.endRead.disarm.engine.read = none := by rw [hframe]; rfl
  have hpower : s.endRead.disarm.power = s.power := by rw [hframe]; rfl
  have hphase : s.endRead.disarm.control.phase = s.control.phase := by rw [hframe]; rfl
  have hdisarmed : Moves R H s s.endRead.disarm := by
    refine s.endRead_moves.trans (disarm_moves ?_)
    rw [hframe]
    exact h.awake
  unfold enterDoze
  dsimp only
  generalize s.endRead.disarm = t at hread hpower hphase hdisarmed
  have hsettle (hr : R) : t.power.settle = none := by
    rw [hpower]
    exact (h.law hr).of_active hactive
  refine (hdisarmed.trans (beginDoze_moves hread hsettle)).trans
    ((settleGates_moves _).trans (completeDoze_moves ?_ ?_))
  · intro hr _
    obtain ⟨hp, hn, -⟩ := settleGates_power_read ({ t with
      power := { t.power with state := .enteringDoze }
      segments := discardedSegments t.segments t.pool
      engine := { t.engine with cursor := cursorAfterDiscard t.pool t.engine.cursor }
      pool := Pool.afterReset } : State)
    rw [hp, hn]
    exact ⟨.inl hread, hsettle hr⟩
  · rw [(settleGates_power_read _).2.2]
    dsimp only
    rw [hphase]
    exact h.awake

theorem takeDoze_moves (h : TakesRequests R H s) (tag : Byte) : Moves R H s (s.takeDoze tag) := by
  have hreply := reply_moves (R := R) (H := H) s tag codeDoze .ok []
  unfold takeDoze
  dsimp only
  split
  · next hactive => exact hreply.trans (enterDoze_moves ⟨h.law, h.awake⟩ hactive)
  · exact hreply

theorem endAdvance_moves (hawake : R → H → s.control.phase ≠ .halted) (st : Status) :
    Moves R H s (s.endAdvance st) :=
  (Moves.one (.advance s s.fuses [] (Fuses.grow_refl _) hawake)).then_quiet rfl

theorem takeAdvance_moves (h : TakesRequests R H s) (tag : Byte) : Moves R H s (s.takeAdvance tag) := by
  unfold takeAdvance
  split
  · have hplan := (Moves.one (.advance s s.fuses s.advancePlan (Fuses.grow_refl _) h.awake))
    dsimp only
    split
    · refine Moves.trans ?_ (endAdvance_moves ?_ _)
      · exact hplan.then_quiet rfl
      · exact h.awake
    · exact hplan.then_quiet rfl
  · exact reply_moves ..

theorem ite_moves {p : Prop} [Decidable p] {t u : State} (ht : Moves R H s t) (hu : Moves R H s u) :
    Moves R H s (if p then t else u) := by
  split
  · exact ht
  · exact hu

theorem lengthByte_moves (hR : R → s.readLaw) (hH : H → s.haltedLaw) (code tag : Byte) (length : Nat) :
    Moves R H s (s.lengthByte code tag length) := by
  unfold lengthByte
  split
  case h_1 hc =>
    have hopen := TakesRequests.of_open hR hH hc
    have hdone := setChannel_moves hopen.awake .done
    have hd := hopen.setChannel .done
    split
    case h_1 => exact hdone
    case h_2 => exact hdone.trans (reply_moves ..)
    case h_3 =>
      exact ite_moves (hdone.trans (reply_moves ..)) (ite_moves (hdone.trans (takeFaultAck_moves hd _))
        (ite_moves (hdone.trans (takeLock_moves ..)) (ite_moves (hdone.trans (reply_moves ..))
        (ite_moves (hdone.trans (takeDoze_moves hd _)) (ite_moves (hdone.trans (takeAdvance_moves hd _))
          (setChannel_moves hopen.awake _))))))
  all_goals exact .refl

end State

theorem execFetch_moves (hH : H → s.haltedLaw) : nextHas (Moves R H s) (execFetch s) := by
  unfold execFetch
  split
  · next hc =>
    exact nextHas_next.2 (State.setChannel_moves
      (fun _ hh => (hH hh).awake_of_transaction (State.channel_some hc)) _)
  all_goals exact nextHas_next.2 .refl

/-- A bit is blown over those that are blown (R24, R36). -/
theorem bitsGrow_or {w : Nat} (a b : BitVec w) : bitsGrow a (a ||| b) := fun i h => by
  simp [h]

theorem bitsGrow_blowRow (row : BitVec 63) : bitsGrow row (blowRow row) := by
  unfold blowRow
  split
  · exact bitsGrow_or _ _
  · exact fun _ h => h

theorem Fuses.grow_blow (f : Fuses) (x : FuseTarget) : f.grow (f.blow x) := by
  cases x with
  | flag slot =>
    exact ⟨rfl, rfl, rfl, rfl, rfl, rfl, rfl, bitsGrow_or _ _, fun _ _ h => h⟩
  | row c =>
    refine ⟨rfl, rfl, rfl, rfl, rfl, rfl, List.length_set, fun _ h => h, fun k => ?_⟩
    show bitsGrow (f.rows.getD k 0) ((f.rows.set c (blowRow (f.rows.getD c 0))).getD k 0)
    by_cases hk : k = c ∧ k < f.rows.length
    · obtain ⟨rfl, hlt⟩ := hk
      have hset : (f.rows.set k (blowRow (f.rows.getD k 0))).getD k 0 = blowRow (f.rows.getD k 0) := by
        simp [List.getD, hlt]
      rw [hset]
      exact bitsGrow_blowRow _
    · have hset : (f.rows.set c (blowRow (f.rows.getD c 0))).getD k 0 = f.rows.getD k 0 := by
        simp only [List.getD, List.getElem?_set]
        split
        · next hc => subst hc; simp at hk; simp [Nat.not_lt.2 hk]
        · rfl
      rw [hset]
      exact fun _ h => h

theorem execFuseBitVerify_moves (hH : H → s.haltedLaw) (blown : Bool) :
    nextHas (Moves R H s) (execFuseBitVerify blown s) := by
  unfold execFuseBitVerify
  split
  · exact nextHas_next.2 .refl
  · next target rest hadv =>
    have hawake : R → H → s.control.phase ≠ .halted := fun _ hh =>
      (hH hh).awake_of_advance (by simp [hadv])
    split
    · have hblown := Moves.one (.advance s _ rest (s.fuses.grow_blow target) hawake)
      refine nextHas_next.2 (State.ite_moves (hblown.trans (State.endAdvance_moves ?_ _)) hblown)
      exact hawake
    · refine nextHas_next.2 ((Moves.one (.push ..)).trans (State.endAdvance_moves ?_ _))
      simpa using hawake

end Sys2Proof.Machine
end

section
/-!
The events of the engine, of the gates, of the alert line and of the wake as chains of moves; then the commands and
the step, in one statement.
-/
namespace Sys2Proof.Machine
variable {R H : Prop} {s : State}

namespace State

/-! ### The engine -/

theorem completeRead_moves (s : State) : Moves R H s s.completeRead := by
  unfold completeRead
  split
  · exact .refl
  · exact (s.endRead_moves.trans (settleGates_moves _)).trans (judge_moves _)

theorem fetchByte_moves (hat : R → s.power.settle = none ∧ s.lines.rst = false) (i : Nat) (b : Byte) :
    Moves R H s (s.fetchByte i b) := by
  have hextend := extend_moves (H := H) hat i b .fetch
  unfold fetchByte
  split
  · exact .refl
  · split
    · exact hextend.trans (completeRead_moves _)
    · exact hextend

/-! ### The gates -/

/-- A tamper sample moves the filter and the timebase alone (R153). -/
theorem sample_lawView (s : State) (high : Bool) (due : Time) :
    ({ s.reachTime due with gates := { (s.reachTime due).gates.sample high with sampledAt := due } } : State).lawView =
      s.lawView := by
  have hdeadline : (s.gates.sample high).deadline = s.gates.deadline := by
    unfold GateUnit.sample
    split
    · rfl
    · split <;> rfl
  obtain ⟨hprint, hscan, htimer⟩ := s.gates.sample_gates high
  simp only [lawView, reachTime_gates, hprint, hscan, htimer, hdeadline]
  rfl

theorem filteredAssertion_moves (s : State) : Moves R H s s.filteredAssertion := by
  unfold filteredAssertion
  split
  · exact .refl
  · exact ((Moves.one (.push s ..)).then_quiet (raise_lawView ..)).trans (settleGates_moves _)

/-! ### The wake -/

theorem becomeActive_moves (hread : R → s.engine.read = none) : Moves R H s s.becomeActive :=
  (Moves.one (.power s { s.power with state := .active, settle := none } (fun hr => .inr (.inl (hread hr)))
    fun _ hrunning => nomatch hrunning)).then_quiet rfl

theorem wakeRead_moves (hat : R → s.control.phase = .run ∧ s.power.state = .waking) {r : FetchRead}
    (hkind : r.kind.job = .wake) : Moves R H s (s.startRead .wake r) :=
  startRead_moves fun hR => ⟨hkind.symm, by rw [hkind]; exact hat hR⟩

/-- The end of the WAKE job leaves no read, and the phase, the power state and the lines as they were. -/
theorem endWakeJob_frame (s : State) : ∃ a b, s.endWakeJob = { s with
    port0 := a, port1 := b
    engine := { s.engine with job := .idle, read := none, wake0 := none, wake1 := none } } := by
  obtain ⟨a, b, h⟩ := s.closeWakeRead_frame
  exact ⟨a, b, by simp only [endWakeJob, h]⟩

theorem wakeMatch_moves (hread : R → s.engine.read = none) : Moves R H s s.wakeMatch :=
  ((becomeActive_moves hread).trans (settleGates_moves _)).trans (judge_moves _)

theorem wakeMismatch_moves (hread : R → s.engine.read = none) (hrun : R → s.control.phase = .run)
    (hrst : R → s.lines.rst = false) (detail : Nat) : Moves R H s (s.wakeMismatch detail) := by
  refine Moves.trans ?_ (.one (.recover _ (fun hr => ⟨rfl, ?_⟩) fun hr _ => ?_))
  · refine Moves.trans ?_ (becomeActive_moves fun hr => ?_)
    · exact (Moves.one (.push s ..)).then_quiet (latchGates_lawView ..)
    · simpa using hread hr
  · simpa using hrst hr
  · simp [hrun hr]

theorem wakeEnd_moves (hR : R → s.readLaw) (bytes : List Byte) : Moves R H s (s.wakeEnd bytes) := by
  obtain ⟨a, b, hframe⟩ := s.endWakeJob_frame
  have hended := s.endWakeJob_moves (R := R) (H := H)
  unfold wakeEnd
  split
  · next hread _ =>
    have hrun (hr : R) : s.endWakeJob.control.phase = .run := by
      rw [hframe]
      exact ((hR hr).run_of_wake hread rfl).1
    have hrst (hr : R) : s.endWakeJob.lines.rst = false := by
      rw [hframe]
      exact (hR hr).rst_of_read hread
    have hnone (_ : R) : s.endWakeJob.engine.read = none := by rw [hframe]
    split
    · exact ite_moves (hended.trans (wakeMatch_moves hnone)) (hended.trans (wakeMismatch_moves hnone hrun hrst _))
    · exact .refl
  · exact .refl

end State

theorem execFetchDataByte_moves (hR : R → s.readLaw) (b : Byte) :
    nextHas (Moves R H s) (execFetchDataByte b s) := by
  unfold execFetchDataByte
  split
  · exact nextHas_next.2 .refl
  · next r hread =>
    have hat (hk : r.kind.job = .fill ∨ r.kind.job = .patrol) (hr : R) :
        s.power.settle = none ∧ s.lines.rst = false :=
      ⟨(hR hr).of_active ((hR hr).run_of_fetch hread hk).2, (hR hr).rst_of_read hread⟩
    split
    case h_1 hk => exact nextHas_next.2 (State.fetchByte_moves (hat (by simp [hk, ReadKind.job])) ..)
    case h_2 hk => exact nextHas_next.2 (State.fetchByte_moves (hat (by simp [hk, ReadKind.job])) ..)
    all_goals exact nextHas_next.2 .refl

theorem execPortAvailable_moves (p : Port) : nextHas (Moves R H s) (execPortAvailable p s) := by
  unfold execPortAvailable
  split
  · exact nextHas_next.2 .refl
  · split
    · exact nextHas_next.2 .refl
    · refine nextHas_next.2 (Moves.trans (.quiet ?_) (State.judge_moves _))
      exact State.setPort_lawView ..

theorem execPatrolTimerExpiry_moves : nextHas (Moves R H s) (execPatrolTimerExpiry s) := by
  unfold execPatrolTimerExpiry
  split
  · exact nextHas_next.2 .refl
  · refine nextHas_next.2 (Moves.trans (.quiet ?_) (State.judge_moves _))
    rfl

theorem execSequenceTimerExpiry_moves (hR : R → s.readLaw) (hH : H → s.haltedLaw) :
    nextHas (Moves R H s) (execSequenceTimerExpiry s) := by
  unfold execSequenceTimerExpiry
  split
  · exact nextHas_next.2 .refl
  · next timer ht =>
    have hawake : R → H → s.control.phase ≠ .halted := fun _ hh => (hH hh).awake_of_timer (by simp [ht])
    have hreached := Moves.quiet (R := R) (H := H) (s := s) (t := s.reachTime timer.dueAt)
      (State.reachTime_lawView ..)
    split
    · exact nextHas_next.2 (.one (.gates s { s.gates with timer := some { timer with superseded := false } }
        s.lines.epwr s.lines.earm hawake))
    · split
      · refine nextHas_next.2 ((hreached.trans ?_).trans (State.judgeIfConfirmed_moves ..))
        exact State.printOn_moves hawake
      · refine nextHas_next.2 ((hreached.trans ?_).trans (State.completeDoze_moves (fun hr hdozing => ?_) ?_))
        · exact State.setPrint_moves (by simpa using hawake) _ _
        · exact (show s.readLaw from hR hr).idle_of_enteringDoze hdozing
        · exact hawake
      all_goals exact nextHas_next.2 .refl

theorem execDeadlineExpiry_moves (hH : H → s.haltedLaw) : nextHas (Moves R H s) (execDeadlineExpiry s) := by
  unfold execDeadlineExpiry
  split
  · next harmed =>
    have hawake : R → H → s.control.phase ≠ .halted := fun _ hh => (hH hh).awake_of_deadline (by simp [harmed])
    dsimp only
    refine nextHas_next.2 (Moves.trans ?_ (State.settleGates_moves _))
    refine Moves.then_quiet ?_ (State.raise_lawView ..)
    refine Moves.trans ?_ (.one (.push ..))
    exact (Moves.one (.gates s { s.gates with deadline := .expired } s.lines.epwr s.lines.earm hawake)).then_quiet rfl
  · exact nextHas_next.2 .refl

theorem execTamperSample_moves (high : Bool) : nextHas (Moves R H s) (execTamperSample high s) := by
  unfold execTamperSample
  split
  · exact nextHas_next.2 .refl
  · dsimp only
    have hsampled := Moves.quiet (R := R) (H := H) (s.sample_lawView high (after s.gates.sampledAt 1000))
    exact nextHas_next.2 (State.ite_moves (hsampled.trans (State.filteredAssertion_moves _)) hsampled)

theorem execAlertPulseEnd_moves : nextHas (Moves R H s) (execAlertPulseEnd s) := by
  unfold execAlertPulseEnd
  split
  · next start ht =>
    exact nextHas_next.2 ((Moves.one (.pulseEnd s start _ ht)).then_quiet rfl)
  all_goals exact nextHas_next.2 .refl

theorem execAlertGapEnd_moves : nextHas (Moves R H s) (execAlertGapEnd s) := by
  unfold execAlertGapEnd
  split
  · next start ht =>
    exact nextHas_next.2 ((Moves.one (.gapEnd s start _ ht)).then_quiet rfl)
  all_goals exact nextHas_next.2 .refl

theorem execWakeEdge_moves (hR : R → s.readLaw) : nextHas (Moves R H s) (execWakeEdge s) := by
  refine nextHas_next.2 ?_
  split
  · next h => exact State.startWaking_moves hR h.2 (by simpa [State.listening] using h.1)
  · exact .refl

theorem execSettleTimerExpiry_moves (hR : R → s.readLaw) : nextHas (Moves R H s) (execSettleTimerExpiry s) := by
  unfold execSettleTimerExpiry
  split
  · exact nextHas_next.2 .refl
  · next start hstart =>
    have hreached := Moves.quiet (R := R) (H := H) (s := s) (t := s.reachTime (settleDue start))
      (State.reachTime_lawView ..)
    have hwaking (hr : R) : (s.reachTime (settleDue start)).power.state = .waking :=
      (congrArg PowerControl.state (State.reachTime_power ..)).trans ((hR hr).2.2 (by simp [hstart])).1
    have hlaw (hr : R) : (s.reachTime (settleDue start)).readLaw := (hR hr).of_lawView (State.reachTime_lawView ..)
    have hcontrol := State.reachTime_control s (settleDue start)
    rw [← hcontrol]
    generalize s.reachTime (settleDue start) = t at hreached hwaking hlaw
    split
    · next hrecovery =>
      refine nextHas_next.2 (hreached.trans (State.becomeActive_moves ?_))
      exact fun hr => (hlaw hr).read_none (by simp [hrecovery]) (.inr (by simp [hrecovery]))
    · next hrun =>
      refine nextHas_next.2 (Moves.trans ?_ (State.wakeRead_moves ?_ rfl))
      · have hstopped : Moves R H t { t with power := { t.power with settle := none } } :=
          .one (.power t _ (fun _ => .inl rfl) fun _ hrunning => nomatch hrunning)
        exact (hreached.trans hstopped).then_quiet rfl
      · exact fun hr => ⟨hrun, hwaking hr⟩
    all_goals exact nextHas_next.2 .refl

theorem execWakeIdentityReadEnd_moves (hR : R → s.readLaw) (b0 b1 b2 : Byte) :
    nextHas (Moves R H s) (execWakeIdentityReadEnd b0 b1 b2 s) := by
  have hat {r : FetchRead} (hread : s.engine.read = some r) (hkind : r.kind.job = .wake) (hr : R) :
      s.closeWakeRead.control.phase = .run ∧ s.closeWakeRead.power.state = .waking := by
    obtain ⟨_, _, hframe⟩ := s.closeWakeRead_frame
    rw [hframe]
    exact (hR hr).run_of_wake hread hkind
  unfold execWakeIdentityReadEnd
  split
  · next hread =>
    refine nextHas_next.2 (Moves.trans ?_ (State.wakeRead_moves ?_ rfl))
    · exact s.closeWakeRead_moves.then_quiet rfl
    · exact hat hread rfl
  · next hread =>
    refine nextHas_next.2 (Moves.trans ?_ (State.wakeRead_moves ?_ rfl))
    · exact s.closeWakeRead_moves.then_quiet rfl
    · exact hat hread rfl
  · exact nextHas_next.2 .refl

/-- A command other than RESET is a chain of moves from the state in which it begins. -/
theorem exec_moves {i : Instr} (hi : i ≠ .reset) : nextHas (Moves s.readLaw s.haltedLaw s) (exec i s) := by
  cases i with
  | reset => exact absurd rfl hi
  | resetEnd => exact execResetEnd_moves id
  | identityReadEnd => exact execIdentityReadEnd_moves id _ _ _
  | headerReadEnd bytes => exact nextHas_whenWellFormed (State.headerEnd_moves id bytes) _
  | bodyReadEnd bytes => exact nextHas_whenWellFormed (State.bodyEnd_moves id bytes) _
  | upstreamCsAssert => exact execUpstreamCsAssert_moves id _
  | commandByte => exact execCommandByte_moves id _
  | addressComplete => exact execAddressComplete_moves id _
  | readDataByte => exact execReadDataByte_moves id id _
  | upstreamCsDeassert => exact execUpstreamCsDeassert_moves _
  | fetch => exact execFetch_moves id
  | unknownRequest => exact nextHas_whenWellFormed (State.lengthByte_moves id id ..) _
  | requestLengthByte => exact nextHas_whenWellFormed (State.lengthByte_moves id id ..) _
  | status => exact nextHas_next.2 (State.request_moves id id _ _ _ fun _ _ => State.reply_moves ..)
  | verdicts => exact nextHas_next.2 (State.request_moves id id _ _ _ fun _ _ => State.takeVerdicts_moves ..)
  | faultRead => exact nextHas_next.2 (State.request_moves id id _ _ _ fun _ _ => State.takeFaultRead_moves ..)
  | faultAck => exact nextHas_next.2 (State.request_moves id id _ _ _ fun _ hu => State.takeFaultAck_moves hu _)
  | rearm => exact nextHas_next.2 (State.request_moves id id _ _ _ fun _ _ => State.takeRearm_moves ..)
  | forceOff => exact nextHas_next.2 (State.request_moves id id _ _ _ fun _ _ => State.takeForceOff_moves ..)
  | settings => exact nextHas_next.2 (State.request_moves id id _ _ _ fun _ hu => State.takeSettings_moves hu ..)
  | lock => exact nextHas_next.2 (State.request_moves id id _ _ _ fun _ _ => State.takeLock_moves ..)
  | fillMask => exact nextHas_next.2 (State.request_moves id id _ _ _ fun _ _ => State.takeFillMask_moves ..)
  | time => exact nextHas_next.2 (State.request_moves id id _ _ _ fun _ _ => State.reply_moves ..)
  | doze => exact nextHas_next.2 (State.request_moves id id _ _ _ fun _ hu => State.takeDoze_moves hu _)
  | advance => exact nextHas_next.2 (State.request_moves id id _ _ _ fun _ hu => State.takeAdvance_moves hu _)
  | fuseBitVerify => exact execFuseBitVerify_moves id _
  | fetchDataByte => exact execFetchDataByte_moves id _
  | portAvailable => exact execPortAvailable_moves _
  | sequenceTimerExpiry => exact execSequenceTimerExpiry_moves id id
  | patrolTimerExpiry => exact execPatrolTimerExpiry_moves
  | deadlineExpiry => exact execDeadlineExpiry_moves id
  | tamperSample => exact execTamperSample_moves _
  | alertPulseEnd => exact execAlertPulseEnd_moves
  | alertGapEnd => exact execAlertGapEnd_moves
  | wakeEdge => exact execWakeEdge_moves id
  | settleTimerExpiry => exact execSettleTimerExpiry_moves id
  | wakeIdentityReadEnd => exact execWakeIdentityReadEnd_moves id _ _ _
  | wakeCheck bytes => exact nextHas_whenWellFormed (State.wakeEnd_moves id bytes) _

/-- A step that meets no RESET is a chain of moves from the state with the queue's rest. -/
theorem step_moves (hreset : s.pending.head? ≠ some .reset) :
    ∃ rest, nextHas (Moves s.readLaw s.haltedLaw { s with pending := rest }) (step s) := by
  unfold step
  split
  · next hp => exact ⟨[], nextHas_next.2 (.quiet (by rw [s.tick_lawView, ← hp]))⟩
  · next i rest hp => exact ⟨rest, exec_moves (fun hi => hreset (by simp [hp, hi]))⟩

/-- What the cut of an ADVANCE operation leaves: the bit under its program step reads either way (R39). -/
theorem State.cutAdvance_spec (s : State) : ∃ f n,
    s.cutAdvance = { s with fuses := f, advance := [], drawn := n } ∧ (s.advance = [] → f = s.fuses) ∧
      ∀ target rest, s.advance = target :: rest → f = s.fuses ∨ f = s.fuses.blow target := by
  unfold cutAdvance
  split
  · next h => exact ⟨s.fuses, s.drawn, by rw [← h], fun _ => rfl, fun _ _ hcons => by simp [h] at hcons⟩
  · next target rest h =>
    refine ⟨_, _, rfl, fun hnil => by simp [h] at hnil, fun x l hcons => ?_⟩
    obtain ⟨rfl, rfl⟩ := List.cons.inj (h.symm.trans hcons)
    split
    · exact .inr rfl
    · exact .inl rfl

theorem State.cutAdvance_grow (s : State) : s.fuses.grow s.cutAdvance.fuses := by
  obtain ⟨f, n, h, hnil, hcons⟩ := s.cutAdvance_spec
  rw [h]
  show s.fuses.grow f
  cases ha : s.advance with
  | nil =>
    rw [hnil ha]
    exact Fuses.grow_refl _
  | cons x rest =>
    rcases hcons x rest ha with hf | hf <;> rw [hf]
    · exact Fuses.grow_refl _
    · exact s.fuses.grow_blow x

/-- A step that meets RESET gives a state after reset, in which the fuses have grown (R55, R24, R39). -/
theorem step_of_reset (hreset : s.pending.head? = some .reset) : ∃ rest f a b n,
    s.fuses.grow f ∧ step s = .next (State.afterReset rest f a b n) := by
  cases hp : s.pending with
  | nil => simp [hp] at hreset
  | cons i rest =>
    obtain rfl : i = .reset := by simpa [hp] using hreset
    have hgrow := State.cutAdvance_grow { s with pending := rest }
    unfold step
    rw [hp]
    exact ⟨_, _, _, _, _, hgrow, rfl⟩

end Sys2Proof.Machine
end

section
/-!
The laws of fuses, of HALTED, of the current read, of CRST_N, of the fault stack and of ALRT_N, move by move.
-/
namespace Sys2Proof.Machine
variable {R H : Prop} {s t : State}

/-- A pool move changes the segment states and the pool alone. -/
theorem PoolMove.frame (h : PoolMove s t) : ∃ sg p, t = { s with segments := sg, pool := p } := by
  cases h with
  | append g =>
    rw [State.appendGap_eq]
    exact ⟨s.segments, _, rfl⟩
  | release i c =>
    rw [State.appendGap_eq]
    exact ⟨_, _, rfl⟩
  | change => exact ⟨s.segments, _, rfl⟩
  | grantPatrol => exact ⟨s.segments, _, rfl⟩
  | releasePatrol => exact ⟨s.segments, _, rfl⟩
  | purge => exact ⟨s.segments, _, rfl⟩
  | _ => exact ⟨_, _, rfl⟩

/-- What entry to HALTED leaves of the fuses: a bit cut in its program step may be blown (R39). -/
theorem State.enterHalted_fuses (s : State) : s.enterHalted.fuses = s.cutAdvance.fuses := rfl

/-! ### Fuses, the lock and boot-confirmed -/

theorem bitsGrow.trans {w : Nat} {a b c : BitVec w} (h : bitsGrow a b) (h' : bitsGrow b c) : bitsGrow a c :=
  fun i hi => h' i (h i hi)

theorem Fuses.grow.trans {f g k : Fuses} (h : f.grow g) (h' : g.grow k) : f.grow k := by
  obtain ⟨h1, h2, h3, h4, h5, h6, h7, hrevoked, hrows⟩ := h
  obtain ⟨k1, k2, k3, k4, k5, k6, k7, krevoked, krows⟩ := h'
  exact ⟨k1.trans h1, k2.trans h2, k3.trans h3, k4.trans h4, k5.trans h5, k6.trans h6, k7.trans h7,
    hrevoked.trans krevoked, fun c => (hrows c).trans (krows c)⟩

/-- What only grows: fuse bits, the settings lock and boot-confirmed. -/
def State.growsTo (s t : State) : Prop :=
  s.fuses.grow t.fuses ∧ (s.lock = true → t.lock = true) ∧
    (s.control.bootConfirmed = true → t.control.bootConfirmed = true)

namespace State

theorem growsTo.trans {u : State} (h : s.growsTo t) (h' : t.growsTo u) : s.growsTo u :=
  ⟨h.1.trans h'.1, fun hl => h'.2.1 (h.2.1 hl), fun hb => h'.2.2 (h.2.2 hb)⟩

theorem growsTo_of_eq (hfuses : t.fuses = s.fuses) (hlock : t.lock = s.lock)
    (hboot : t.control.bootConfirmed = s.control.bootConfirmed) : s.growsTo t :=
  ⟨hfuses ▸ Fuses.grow_refl _, fun h => hlock.trans h, fun h => hboot.trans h⟩

theorem confirmBoot_bootConfirmed (s : State) : s.confirmBoot.control.bootConfirmed = true := by
  unfold confirmBoot
  split
  · next h => exact h
  · rfl

/-- The print gate's move can set boot-confirmed and never clears it (R69, R144). -/
theorem settlePrint_bootConfirmed (h : s.control.bootConfirmed = true) :
    s.settlePrint.control.bootConfirmed = true := by
  have hrising : s.printRising.control.bootConfirmed = true := by
    unfold printRising
    split
    · exact confirmBoot_bootConfirmed _
    · exact h
  have hfalling : s.printFalling.control.bootConfirmed = true := by
    unfold printFalling
    split <;> exact h
  unfold settlePrint
  split
  · exact hrising
  · exact hrising
  · exact hfalling
  · exact hfalling
  all_goals exact h

theorem settleGates_bootConfirmed (h : s.control.bootConfirmed = true) :
    s.settleGates.control.bootConfirmed = true := by
  obtain ⟨_, -, hscan⟩ := s.settlePrint.settleScan_frame
  unfold settleGates
  rw [hscan]
  exact settlePrint_bootConfirmed h

theorem settleGates_fuses_lock (s : State) : s.settleGates.fuses = s.fuses ∧ s.settleGates.lock = s.lock := by
  obtain ⟨_, _, _, _, _, _, _, _, _, _, h⟩ := s.settleGates_frame
  rw [h]
  exact ⟨rfl, rfl⟩

end State

theorem Move.growsTo (h : Move R H s t) : s.growsTo t := by
  cases h with
  | quiet _ hq =>
    have hfuses : t.lawView.fuses = s.lawView.fuses := by rw [hq]
    have hlock : t.lawView.lock = s.lawView.lock := by rw [hq]
    have hboot : t.lawView.control.bootConfirmed = s.lawView.control.bootConfirmed := by rw [hq]
    exact State.growsTo_of_eq hfuses hlock hboot
  | pool _ hp =>
    obtain ⟨_, _, rfl⟩ := hp.frame
    exact State.growsTo_of_eq rfl rfl rfl
  | advance f l hgrow => exact ⟨hgrow, id, id⟩
  | lock => exact ⟨Fuses.grow_refl _, fun _ => rfl, id⟩
  | boot => exact ⟨Fuses.grow_refl _, id, fun _ => rfl⟩
  | settle =>
    obtain ⟨hfuses, hlock⟩ := s.settleGates_fuses_lock
    exact ⟨hfuses ▸ Fuses.grow_refl _, fun h => hlock.trans h, State.settleGates_bootConfirmed⟩
  | push => exact State.growsTo_of_eq (by simp) (by simp) (by simp)
  | halt =>
    obtain ⟨_, _, h⟩ := s.enterHalted_frame
    refine ⟨s.enterHalted_fuses ▸ s.cutAdvance_grow, ?_, ?_⟩ <;> rw [h] <;> exact id
  | recover =>
    obtain ⟨_, _, h⟩ := s.enterRecovery_frame
    rw [h]
    exact State.growsTo_of_eq rfl rfl rfl
  | _ => exact State.growsTo_of_eq rfl rfl rfl

/-- Settles O56: every move lets the three only grow, and RESET keeps the fuses. -/
theorem fusesLockAndBootOnlyGrow : Obligations.FusesLockAndBootOnlyGrow := by
  intro s t hstep
  by_cases hreset : s.pending.head? = some .reset
  · obtain ⟨rest, f, a, b, n, hgrow, h⟩ := step_of_reset hreset
    rw [hstep] at h
    cases h
    exact ⟨hgrow, fun hn => absurd hreset hn⟩
  · obtain ⟨rest, hnext⟩ := step_moves hreset
    have hmoves := hnext t hstep
    have hgrows := hmoves.keeps (P := s.growsTo) (fun _ _ hm hs => hs.trans hm.growsTo)
      (State.growsTo_of_eq rfl rfl rfl)
    exact ⟨hgrows.1, fun _ => hgrows.2⟩

/-! ### The read law -/

namespace State

theorem readLaw_of_readNone (hread : s.engine.read = none)
    (hrst : s.lines.rst = true → s.control.phase = .hold)
    (hsettle : s.power.settle.isSome = true →
      s.power.state = .waking ∧ (s.control.phase = .run ∨ s.control.phase = .recovery)) : s.readLaw :=
  ⟨fun _ hr => (nomatch hread.symm.trans hr), fun h => ⟨hrst h, hread⟩, hsettle⟩

end State

theorem Move.readLaw (hR : R) (h : Move R H s t) (hs : s.readLaw) : t.readLaw := by
  cases h with
  | quiet _ hq => exact hs.of_lawView hq
  | pool _ hp =>
    obtain ⟨_, _, rfl⟩ := hp.frame
    exact hs
  | settle =>
    obtain ⟨_, _, _, _, _, _, _, _, _, _, h⟩ := s.settleGates_frame
    rw [h]
    exact hs
  | push k r g a d =>
    obtain ⟨_, _, h⟩ := s.pushFault_frame k r g a d
    rw [h]
    exact hs
  | endRead j => exact State.readLaw_of_readNone rfl (fun h => (hs.2.1 h).1) hs.2.2
  | startRead j r hfits =>
    obtain ⟨hjob, hphase⟩ := hfits hR
    refine ⟨fun r' hr => ?_, fun hrst => ?_, hs.2.2⟩
    · cases hr
      refine ⟨hjob, ?_⟩
      generalize r.kind.job = k at hphase
      cases k with
      | manifest => exact hphase.1
      | idle => exact hphase.elim
      | _ => exact hphase
    · have hhold := (hs.2.1 hrst).1
      generalize r.kind.job = k at hphase
      cases k with
      | manifest => exact absurd hrst (by simp [hphase.2])
      | idle => exact hphase.elim
      | _ => exact absurd hhold (by simp [hphase.1])
  | power w hread hsettle =>
    refine ⟨fun r hr => ⟨(hs.1 r hr).1, ?_⟩, hs.2.1, hsettle hR⟩
    have hphase := (hs.1 r hr).2
    rcases hread hR with hsame | hnone | hhold
    · show match r.kind.job with
        | .manifest => s.control.phase = .hold
        | .fill | .patrol => s.control.phase = .run ∧ w.state = .active
        | .wake => s.control.phase = .run ∧ w.state = .waking
        | .idle => False
      rw [hsame]
      exact hphase
    · exact nomatch hnone.symm.trans hr
    · generalize r.kind.job = k at hphase
      cases k with
      | manifest => exact hhold
      | idle => exact hphase.elim
      | _ => exact absurd hhold (by simp [hphase.1])
  | release => exact ⟨hs.1, fun h => (nomatch h), hs.2.2⟩
  | halt hat =>
    obtain ⟨hsettle, hrst⟩ := hat hR
    obtain ⟨_, _, h⟩ := s.enterHalted_frame
    rw [h]
    exact State.readLaw_of_readNone rfl (by simp [hrst]) (by simp [hsettle])
  | recover hat =>
    obtain ⟨hsettle, hrst⟩ := hat hR
    obtain ⟨_, _, h⟩ := s.enterRecovery_frame
    rw [h]
    exact State.readLaw_of_readNone rfl (by simp [hrst]) (by simp [hsettle])
  | commit c copy d hat =>
    obtain ⟨hhold, hrst⟩ := hat hR
    have hsettle := hs.of_hold hhold
    refine State.readLaw_of_readNone rfl (fun h => ?_) fun h => ?_
    · exact absurd (show s.lines.rst = true from h) (by simp [hrst])
    · exact absurd (show s.power.settle.isSome = true from h) (by simp [hsettle])
  | _ => exact hs


/-! ### HALTED and CRST_N -/

namespace State

/-- Where no gate is up and no timer runs outside RUN, the gates' settling changes nothing. -/
theorem settleGates_of_off (hrun : s.control.phase ≠ .run) (hprint : s.gates.print.state = .off)
    (hscan : s.gates.scan.state = .off) (hscnen : s.lines.scnen = false) : s.settleGates = s := by
  have hgood (g : Gate) : s.gateGood g = false :=
    Bool.eq_false_iff.2 fun h => hrun ((s.gateGood_iff g).1 h).1
  have hp : s.settlePrint = s := by simp [settlePrint, hprint, hgood]
  have hgate : { s.gates.scan with state := .off } = s.gates.scan := by rw [← hscan]
  have hlines : { s.lines with scnen := GateState.off.arms } = s.lines := by
    rw [show GateState.off.arms = s.lines.scnen from hscnen.symm]
  simp [settleGates, hp, settleScan, hgood, setScan, hgate, hlines]

theorem haltedLaw_of_awake (h : s.control.phase ≠ .halted) : s.haltedLaw := fun hp => absurd hp h

theorem haltedLaw.of_lawView (hs : s.haltedLaw) (h : t.lawView = s.lawView) : t.haltedLaw := by
  have hview : t.lawView.haltedLaw := h ▸ (show s.lawView.haltedLaw from hs)
  exact hview

theorem crstLaw.of_lawView (hs : s.crstLaw) (h : t.lawView = s.lawView) : t.crstLaw := by
  have hview : t.lawView.crstLaw := h ▸ (show s.lawView.crstLaw from hs)
  exact hview

end State

theorem Move.haltedLaw (hR : R) (hH : H) (h : Move R H s t) (hs : s.haltedLaw) : t.haltedLaw := by
  cases h with
  | quiet _ hq => exact hs.of_lawView hq
  | pool _ hp =>
    obtain ⟨_, _, rfl⟩ := hp.frame
    exact hs
  | transaction x hawake => exact State.haltedLaw_of_awake (hawake hR hH)
  | advance f l _ hawake => exact State.haltedLaw_of_awake (hawake hR hH)
  | gates g epwr earm hawake => exact State.haltedLaw_of_awake (hawake hR hH)
  | acknowledge r rest _ hawake => exact State.haltedLaw_of_awake (hawake hR hH)
  | settings x hawake => exact State.haltedLaw_of_awake (hawake hR hH)
  | settle =>
    intro hp
    have hphase : s.control.phase = .halted := s.settleGates_power_read.2.2.symm.trans hp
    obtain ⟨-, -, -, hscnen, -, -, -, -, -, hprint, hscan, -⟩ := hs hphase
    rw [State.settleGates_of_off (by simp [hphase]) hprint hscan hscnen]
    exact hs hphase
  | push k r g a d =>
    intro hp
    have hphase : s.control.phase = .halted := by simpa using hp
    rw [show s.pushFault k r g a d = s from if_pos hphase]
    exact hs hphase
  | pulseEnd start now hpulse =>
    intro hp
    obtain ⟨-, -, -, -, -, -, -, -, -, -, -, -, -, hidle⟩ := hs hp
    rw [hpulse] at hidle
    cases hidle
  | gapEnd start now hgap =>
    intro hp
    obtain ⟨-, -, -, -, -, -, -, -, -, -, -, -, -, hidle⟩ := hs hp
    rw [hgap] at hidle
    cases hidle
  | endRead j hj =>
    intro hp
    obtain ⟨h1, h2, h3, h4, h5, h6, hjob, -, hrest⟩ := hs hp
    exact ⟨h1, h2, h3, h4, h5, h6, hj.elim (fun h => h.trans hjob) id, rfl, hrest⟩
  | startRead j r hfits =>
    intro hp
    have hphase := (hfits hR).2
    generalize r.kind.job = k at hphase
    cases k with
    | idle => exact hphase.elim
    | _ => exact absurd hp (by simp [hphase.1])
  | halt =>
    obtain ⟨_, _, h⟩ := s.enterHalted_frame
    rw [h]
    exact fun _ => ⟨rfl, rfl, rfl, rfl, rfl, rfl, rfl, rfl, rfl, rfl, rfl, rfl, rfl, rfl⟩
  | recover =>
    obtain ⟨_, _, h⟩ := s.enterRecovery_frame
    rw [h]
    exact fun hp => nomatch hp
  | commit => exact fun hp => nomatch hp
  | _ => exact hs

theorem Move.crstLaw (h : Move R H s t) (hs : s.crstLaw) : t.crstLaw := by
  cases h with
  | quiet _ hq => exact hs.of_lawView hq
  | pool _ hp =>
    obtain ⟨_, _, rfl⟩ := hp.frame
    exact hs
  | settle =>
    obtain ⟨_, _, _, _, _, _, _, _, _, _, h⟩ := s.settleGates_frame
    rw [h]
    exact hs
  | push k r g a d =>
    obtain ⟨_, _, h⟩ := s.pushFault_frame k r g a d
    rw [h]
    exact hs
  | halt =>
    obtain ⟨_, _, h⟩ := s.enterHalted_frame
    rw [h]
    exact ⟨fun _ => .inr rfl, fun _ => rfl⟩
  | recover =>
    obtain ⟨_, _, h⟩ := s.enterRecovery_frame
    rw [h]
    exact ⟨fun h => (nomatch h), fun h => by rcases h with h | h <;> cases h⟩
  | commit => exact ⟨fun h => (nomatch h), fun h => by rcases h with h | h <;> cases h⟩
  | _ => exact hs


/-- Only RESET leaves HALTED: the moves out of another phase do not start there. -/
theorem Move.stays_halted (hR : R) (hH : H) (h : Move R H s t) (hs : s.control.phase = .halted) :
    t.control.phase = .halted := by
  cases h with
  | quiet _ hq =>
    have hphase : t.lawView.control.phase = s.lawView.control.phase := by rw [hq]
    exact hphase.trans hs
  | pool _ hp =>
    obtain ⟨_, _, rfl⟩ := hp.frame
    exact hs
  | settle => exact s.settleGates_power_read.2.2.trans hs
  | push => simpa using hs
  | halt =>
    obtain ⟨_, _, h⟩ := s.enterHalted_frame
    rw [h]
  | recover hat hawake => exact absurd hs (hawake hR hH)
  | commit c copy d hat => exact absurd hs (by simp [(hat hR).1])
  | _ => exact hs

theorem afterReset_laws (rest : List Instr) (f : Fuses) (a b : Bool) (n : Nat) :
    (State.afterReset rest f a b n).readLaw ∧ (State.afterReset rest f a b n).haltedLaw ∧
      (State.afterReset rest f a b n).crstLaw :=
  ⟨State.readLaw_of_readNone rfl (fun _ => rfl) (fun h => nomatch h), fun h => (nomatch h),
    ⟨fun _ => .inl rfl, fun _ => rfl⟩⟩

/-- Settles O57: RESET makes the laws afresh, and every move of any other command keeps them. -/
theorem haltedReadAndCrstLawsAreKept : Obligations.HaltedReadAndCrstLawsAreKept := by
  intro s t hstep hread hhalted hcrst
  by_cases hreset : s.pending.head? = some .reset
  · obtain ⟨rest, f, a, b, n, -, h⟩ := step_of_reset hreset
    rw [hstep] at h
    cases h
    obtain ⟨h1, h2, h3⟩ := afterReset_laws rest f a b n
    exact ⟨h1, h2, h3, fun _ hn => absurd hreset hn⟩
  · obtain ⟨rest, hnext⟩ := step_moves hreset
    have hmoves := hnext t hstep
    exact ⟨hmoves.keeps (fun _ _ hm => hm.readLaw hread) hread,
      hmoves.keeps (fun _ _ hm => hm.haltedLaw hread hhalted) hhalted,
      hmoves.keeps (fun _ _ hm => hm.crstLaw) hcrst,
      fun hp _ => hmoves.keeps (P := fun u => u.control.phase = .halted)
        (fun _ _ hm => hm.stays_halted hread hhalted) hp⟩

/-! ### The fault stack and ALRT_N -/

namespace State

/-- The faults after a push: the stack as it was in HALTED, else with the record on top (R160, R162). -/
theorem pushFault_faultLaw (hs : s.faultLaw) (k : FaultKind) (r g a : Option Nat) (d : Byte) :
    (s.pushFault k r g a d).faultLaw := by
  by_cases hp : s.control.phase = .halted
  · rwa [show s.pushFault k r g a d = s from if_pos hp]
  · rw [pushFault_of_not_halted hp]
    refine ⟨List.length_take_le _ _, fun x hx => ?_⟩
    rcases List.mem_cons.1 (List.mem_of_mem_take hx) with rfl | hx
    · exact hp
    · exact hs.2 x hx

/-- The alert law outside HALTED, of the line, the mode and the depth. -/
def alertRuns (a : Alert) (mode : AlertMode) (depth : Nat) : Prop :=
  match mode with
  | .level => a.asserted = decide (0 < depth) ∧ a.pendingPulses = 0 ∧ a.timing = .idle
  | .pulse => a.asserted = a.timing.isPulse ∧ a.pendingPulses ≤ 15 ∧
      (a.timing.isPulse = true → 0 < a.pendingPulses)

theorem alertLaw_iff_of_awake (h : s.control.phase ≠ .halted) :
    s.alertLaw ↔ alertRuns s.alert s.settings.alertMode s.faults.length := by
  unfold alertLaw
  rw [if_neg h]
  rfl

theorem alertLaw.of_lawView (hs : s.alertLaw) (h : t.lawView = s.lawView) : t.alertLaw := by
  have hview : t.lawView.alertLaw := h ▸ (show s.lawView.alertLaw from hs)
  exact hview

theorem alertRuns_push {a : Alert} {mode : AlertMode} {depth : Nat} (h : alertRuns a mode depth) (now : Time)
    {depth' : Nat} (hdepth : 0 < depth') : alertRuns (a.push mode now) mode depth' := by
  cases mode with
  | level =>
    obtain ⟨-, hcount, hidle⟩ := h
    exact ⟨by simp [Alert.push, hdepth], hcount, hidle⟩
  | pulse =>
    obtain ⟨hasserted, hcount, hpulse⟩ := h
    unfold Alert.push
    dsimp only
    split
    · exact ⟨rfl, by dsimp [Alert.beginPulse]; omega, fun _ => by dsimp [Alert.beginPulse]; omega⟩
    · exact ⟨hasserted, by dsimp; omega, fun _ => by dsimp; omega⟩

theorem alertRuns_changeMode {a : Alert} {old : AlertMode} {depth : Nat} (h : alertRuns a old depth)
    (new : AlertMode) (now : Time) : alertRuns (a.changeMode old new depth now) new depth := by
  cases old with
  | level =>
    cases new with
    | level => exact h
    | pulse =>
      obtain ⟨-, hcount, hidle⟩ := h
      unfold Alert.changeMode
      dsimp only
      split
      · exact ⟨rfl, (by decide : 1 ≤ 15), fun h => nomatch h⟩
      · exact ⟨by rw [hidle]; rfl, by simp [hcount], fun h => by rw [hidle] at h; cases h⟩
  | pulse =>
    cases new with
    | level => exact ⟨rfl, rfl, rfl⟩
    | pulse => exact h

theorem alertRuns_acknowledge {a : Alert} {mode : AlertMode} {depth : Nat} (h : alertRuns a mode depth)
    (depth' : Nat) : alertRuns (a.acknowledge mode depth') mode depth' := by
  cases mode with
  | level => exact ⟨rfl, h.2.1, h.2.2⟩
  | pulse => exact h

/-- A time of the line runs in PULSE mode alone, and not in HALTED (R168, R170). -/
theorem alertLaw.awake_of_timing (hs : s.alertLaw) (h : s.alert.timing ≠ .idle) :
    s.control.phase ≠ .halted ∧ s.settings.alertMode = .pulse := by
  unfold alertLaw at hs
  split at hs
  next => exact absurd hs.2.2 h
  next hp =>
    cases hm : s.settings.alertMode with
    | level => rw [hm] at hs; exact absurd hs.2.2 h
    | pulse => exact ⟨hp, rfl⟩

end State

theorem Move.faultLaw (h : Move R H s t) (hs : s.faultLaw) : t.faultLaw := by
  cases h with
  | quiet _ hq =>
    have hfaults : t.lawView.faults = s.lawView.faults := by rw [hq]
    unfold State.faultLaw
    rwa [show t.faults = s.faults from hfaults]
  | pool _ hp =>
    obtain ⟨_, _, rfl⟩ := hp.frame
    exact hs
  | settle =>
    obtain ⟨_, _, _, _, _, _, _, _, _, _, h⟩ := s.settleGates_frame
    rw [h]
    exact hs
  | push => exact State.pushFault_faultLaw hs ..
  | acknowledge r rest hfaults =>
    obtain ⟨hlength, hphase⟩ := hs
    rw [hfaults] at hlength hphase
    exact ⟨Nat.le_of_succ_le hlength, fun x hx => hphase x (List.mem_cons_of_mem _ hx)⟩
  | halt =>
    obtain ⟨_, _, h⟩ := s.enterHalted_frame
    rw [h]
    exact hs
  | recover =>
    obtain ⟨_, _, h⟩ := s.enterRecovery_frame
    rw [h]
    exact hs
  | _ => exact hs

theorem Move.alertLaw (hR : R) (hH : H) (h : Move R H s t) (hs : s.alertLaw) : t.alertLaw := by
  cases h with
  | quiet _ hq => exact hs.of_lawView hq
  | pool _ hp =>
    obtain ⟨_, _, rfl⟩ := hp.frame
    exact hs
  | settle =>
    obtain ⟨_, _, _, _, _, _, _, _, _, _, h⟩ := s.settleGates_frame
    rw [h]
    exact hs
  | push k r g a d =>
    by_cases hp : s.control.phase = .halted
    · rwa [show s.pushFault k r g a d = s from if_pos hp]
    · rw [State.alertLaw_iff_of_awake hp] at hs
      rw [State.pushFault_of_not_halted hp, State.alertLaw_iff_of_awake]
      · exact State.alertRuns_push hs _ (by simp [pushRecord])
      · exact hp
  | acknowledge r rest hfaults hawake =>
    have hp := hawake hR hH
    rw [State.alertLaw_iff_of_awake hp] at hs
    rw [State.alertLaw_iff_of_awake]
    · exact State.alertRuns_acknowledge hs _
    · exact hp
  | settings x hawake =>
    have hp := hawake hR hH
    rw [State.alertLaw_iff_of_awake hp] at hs
    exact (State.alertLaw_iff_of_awake (s := s.putSettings x) hp).2 (State.alertRuns_changeMode hs _ _)
  | pulseEnd start now hpulse =>
    obtain ⟨hp, hmode⟩ := hs.awake_of_timing (by simp [hpulse])
    rw [State.alertLaw_iff_of_awake hp, hmode] at hs
    refine (State.alertLaw_iff_of_awake (by exact hp)).2 ?_
    change State.alertRuns _ s.settings.alertMode _
    rw [hmode]
    exact ⟨rfl, Nat.le_trans (Nat.sub_le _ _) hs.2.1, fun h => nomatch h⟩
  | gapEnd start now hgap =>
    obtain ⟨hp, hmode⟩ := hs.awake_of_timing (by simp [hgap])
    rw [State.alertLaw_iff_of_awake hp, hmode] at hs
    refine (State.alertLaw_iff_of_awake (by exact hp)).2 ?_
    obtain ⟨hasserted, hcount, -⟩ := hs
    change State.alertRuns _ s.settings.alertMode _
    rw [hmode]
    by_cases hpending : 0 < s.alert.pendingPulses
    · rw [if_pos hpending]
      exact ⟨rfl, hcount, fun _ => hpending⟩
    · rw [if_neg hpending]
      exact ⟨by rw [hasserted, hgap]; rfl, hcount, fun h => nomatch h⟩
  | halt =>
    obtain ⟨_, _, h⟩ := s.enterHalted_frame
    rw [h]
    exact ⟨rfl, rfl, rfl⟩
  | recover _ hawake =>
    have hp := hawake hR hH
    rw [State.alertLaw_iff_of_awake hp] at hs
    obtain ⟨_, _, h⟩ := s.enterRecovery_frame
    rw [h]
    exact (State.alertLaw_iff_of_awake (by simp)).2 (State.alertRuns_changeMode hs _ _)
  | commit c copy d hat =>
    have hp : s.control.phase ≠ .halted := by simp [(hat hR).1]
    rw [State.alertLaw_iff_of_awake hp] at hs
    exact (State.alertLaw_iff_of_awake (s := s.commit c copy d) (fun h => nomatch h)).2
      (State.alertRuns_changeMode hs _ _)
  | _ => exact hs

/-- Settles O58: RESET empties the stack and the line, and every move of any other command keeps the laws. -/
theorem faultAndAlertLawsAreKept : Obligations.FaultAndAlertLawsAreKept := by
  intro s t hstep hread hhalted hfault halert
  by_cases hreset : s.pending.head? = some .reset
  · obtain ⟨rest, f, a, b, n, -, h⟩ := step_of_reset hreset
    rw [hstep] at h
    cases h
    exact ⟨⟨Nat.zero_le _, fun _ h => (nomatch h)⟩, rfl, rfl, rfl⟩
  · obtain ⟨rest, hnext⟩ := step_moves hreset
    have hmoves := hnext t hstep
    exact ⟨hmoves.keeps (fun _ _ hm => hm.faultLaw) hfault,
      hmoves.keeps (fun _ _ hm => hm.alertLaw hread hhalted) halert⟩

end Sys2Proof.Machine
end

section
/-!
O55, the law of the context pool and the gap queue (R96, R113), move by move, and O59, the laws after reset.
-/
namespace Sys2Proof.Machine
variable {R H : Prop} {s t : State}

namespace State

/-! ### Contexts after a slot is set -/

theorem context_setSlot_ne {i j : Nat} (h : j ≠ i) (x : Option Context) :
    (s.setSlot i x).pool.context j = s.pool.context j := by
  simp [Pool.context, List.getElem?_set_ne (Ne.symm h)]

theorem context_setSlot_same {i : Nat} (h : i < s.pool.slots.length) (x : Option Context) :
    (s.setSlot i x).pool.context i = x := by
  simp [Pool.context, h]

theorem context_setSlot_cases {i j : Nat} {x : Option Context} {c : Context}
    (h : (s.setSlot i x).pool.context j = some c) :
    j = i ∧ x = some c ∨ j ≠ i ∧ s.pool.context j = some c := by
  by_cases hj : j = i
  · subst hj
    have hlt : j < s.pool.slots.length := by
      simpa using Pool.lt_length_of_context h
    exact .inl ⟨rfl, (context_setSlot_same hlt x).symm.trans h⟩
  · exact .inr ⟨hj, (context_setSlot_ne hj x).symm.trans h⟩

theorem of_context_setSlot_none {i j : Nat} {c : Context} (h : (s.setSlot i none).pool.context j = some c) :
    j ≠ i ∧ s.pool.context j = some c := by
  rcases context_setSlot_cases h with ⟨-, hx⟩ | hj
  · cases hx
  · exact hj

theorem segState_none_of_segments (h : s.segments = []) (g : Nat) : s.segState g = none := by
  unfold segState entry
  rw [h]
  rfl

/-! ### What the law says of a live context and of a state that holds something -/

/-- The state of a context's segment, by its role (R96). -/
def heldState : Role → SegState
  | .verify => .hashing
  | .patrol => .verified

/-- A segment in use is proof that the part is neither in HOLD nor in RECOVERY. -/
theorem poolLaw.busy_of_segState (hs : s.poolLaw) {g : Nat} {x : SegState} (h : s.segState g = some x) :
    ¬ (s.control.phase = .hold ∨ s.control.phase = .recovery) := by
  obtain ⟨-, -, -, -, -, -, -, hempty⟩ := hs
  intro hp
  rw [segState_none_of_segments (hempty hp).1] at h
  cases h

theorem poolLaw.segState_of_context (hs : s.poolLaw) {i : Nat} {c : Context} (hc : s.pool.context i = some c) :
    s.segState c.seg = some (heldState c.role) := by
  obtain ⟨-, -, hagree, -⟩ := hs
  rw [(hagree i c hc).2]
  cases c.role <;> rfl

/-- What the law says of the gap queue (R113). -/
theorem poolLaw.gaps_law (hs : s.poolLaw) : s.pool.gaps.length ≤ 32 ∧ s.pool.gaps.Nodup ∧
    ∀ g ∈ s.pool.gaps, s.segState g = some .unseen ∨ s.segState g = some .hashing := by
  obtain ⟨-, -, -, -, hcount, hnodup, hgaps, -⟩ := hs
  exact ⟨hcount, hnodup, hgaps⟩

theorem poolLaw.empty_outside_run (hs : s.poolLaw) (hp : s.control.phase = .hold ∨ s.control.phase = .recovery) :
    s.segments = [] ∧ s.pool.gaps = [] ∧ ∀ i, s.pool.context i = none := by
  obtain ⟨-, -, -, -, -, -, -, hempty⟩ := hs
  exact hempty hp

theorem poolLaw.busy_of_context (hs : s.poolLaw) {i : Nat} {c : Context} (hc : s.pool.context i = some c) :
    ¬ (s.control.phase = .hold ∨ s.control.phase = .recovery) :=
  hs.busy_of_segState (hs.segState_of_context hc)

theorem poolLaw.seg_ne (hs : s.poolLaw) {i j : Nat} {c d : Context} (hc : s.pool.context i = some c)
    (hd : s.pool.context j = some d) (h : j ≠ i) : d.seg ≠ c.seg := by
  obtain ⟨-, hunique, -⟩ := hs
  exact fun hseg => h (hunique j i d c hd hc (.inl hseg))

/-- A proof's segment has a VERIFY context, which is HASHING (R96). -/
theorem poolLaw.role_of_hashing (hs : s.poolLaw) {i : Nat} {c : Context} (hc : s.pool.context i = some c)
    (h : s.segState c.seg = some .hashing) : c.role = .verify := by
  rw [hs.segState_of_context hc] at h
  cases hr : c.role with
  | verify => rfl
  | patrol => rw [hr] at h; cases h

/-! ### Each move of the pool -/

theorem poolLaw.change (hs : s.poolLaw) {i : Nat} {c d : Context} (hc : s.pool.context i = some c)
    (hseg : d.seg = c.seg) (hrole : d.role = c.role) (hfill : c.fill < segmentBytes → d.fill < segmentBytes) :
    (s.setSlot i (some d)).poolLaw := by
  have hlt := Pool.lt_length_of_context hc
  have hold : ∀ {j e}, (s.setSlot i (some d)).pool.context j = some e →
      ∃ e', s.pool.context j = some e' ∧ e.seg = e'.seg ∧ e.role = e'.role ∧
        (e'.fill < segmentBytes → e.fill < segmentBytes) := by
    intro j e he
    rcases context_setSlot_cases he with ⟨rfl, hx⟩ | ⟨-, he⟩
    · cases hx
      exact ⟨c, hc, hseg, hrole, hfill⟩
    · exact ⟨e, he, rfl, rfl, id⟩
  have hbusy := hs.busy_of_context hc
  obtain ⟨hlength, hunique, hagree, hhashing, hcount, hnodup, hgaps, -⟩ := hs
  refine ⟨by simpa using hlength, ?_, ?_, ?_, hcount, hnodup, hgaps, fun hp => absurd hp hbusy⟩
  · intro j k e f he hf h
    obtain ⟨e', he', hes, her, -⟩ := hold he
    obtain ⟨f', hf', hfs, hfr, -⟩ := hold hf
    exact hunique j k e' f' he' hf' (by rwa [hes, hfs, her, hfr] at h)
  · intro j e he
    obtain ⟨e', he', hes, her, hef⟩ := hold he
    obtain ⟨hf, hst⟩ := hagree j e' he'
    refine ⟨hef hf, ?_⟩
    rw [hes, her]
    exact hst
  · intro g hg
    obtain ⟨j, e, he, heg⟩ := hhashing g hg
    by_cases hj : j = i
    · subst hj
      rw [he] at hc
      cases hc
      exact ⟨j, d, context_setSlot_same hlt _, hseg.trans heg⟩
    · exact ⟨j, e, (context_setSlot_ne hj _).trans he, heg⟩

theorem poolLaw.grant (hs : s.poolLaw) {i : Nat} {c : Context} (hi : i < s.pool.slots.length)
    (hfree : s.pool.context i = none) (hrole : c.role = .verify) (hfill : c.fill < segmentBytes)
    (hst : s.segState c.seg = some .unseen) : ((s.setSlot i (some c)).setSegState c.seg .hashing).poolLaw := by
  have hother : ∀ {j e}, s.pool.context j = some e → e.seg ≠ c.seg := fun {_ e} he hseg => by
    have hstate := hs.segState_of_context he
    rw [hseg, hst] at hstate
    exact absurd hstate (by cases e.role <;> decide)
  have hseg : ∀ k, ((s.setSlot i (some c)).setSegState c.seg .hashing).segState k =
      if k = c.seg then some .hashing else s.segState k := fun k => by
    rw [segState_setSegState, show (s.setSlot i (some c)).segState c.seg = some .unseen from hst]
    rfl
  have hbusy := hs.busy_of_segState hst
  obtain ⟨hlength, hunique, hagree, hhashing, hcount, hnodup, hgaps, -⟩ := hs
  refine ⟨by simpa using hlength, ?_, ?_, ?_, hcount, hnodup, ?_, fun hp => absurd hp hbusy⟩
  · intro j k e f he hf h
    rcases context_setSlot_cases he with ⟨rfl, hx⟩ | ⟨-, he'⟩ <;>
      rcases context_setSlot_cases hf with ⟨rfl, hy⟩ | ⟨-, hf'⟩
    · rfl
    · cases hx
      rcases h with h | ⟨h, -⟩
      · exact absurd h.symm (hother hf')
      · rw [hrole] at h; cases h
    · cases hy
      rcases h with h | ⟨-, h⟩
      · exact absurd h (hother he')
      · rw [hrole] at h; cases h
    · exact hunique j k e f he' hf' h
  · intro j e he
    rcases context_setSlot_cases he with ⟨rfl, hx⟩ | ⟨hj, he⟩
    · cases hx
      refine ⟨hfill, ?_⟩
      rw [hseg, if_pos rfl, hrole]
    · refine ⟨(hagree j e he).1, ?_⟩
      rw [hseg, if_neg (hother he)]
      exact (hagree j e he).2
  · intro g hg
    rw [hseg] at hg
    by_cases hgc : g = c.seg
    · exact ⟨i, c, context_setSlot_same hi _, hgc.symm⟩
    · rw [if_neg hgc] at hg
      obtain ⟨j, e, he, heg⟩ := hhashing g hg
      have hj : j ≠ i := fun h => by rw [h, hfree] at he; cases he
      exact ⟨j, e, (context_setSlot_ne hj _).trans he, heg⟩
  · intro g hg
    rw [hseg]
    by_cases hgc : g = c.seg
    · exact .inr (if_pos hgc)
    · rw [if_neg hgc]
      exact hgaps g hg

theorem poolLaw.grantPatrol (hs : s.poolLaw) {i : Nat} {c : Context} (hi : i < s.pool.slots.length)
    (hfree : s.pool.context i = none) (hnone : s.pool.patrolSlot = none) (hrole : c.role = .patrol)
    (hfill : c.fill < segmentBytes) (hst : s.segState c.seg = some .verified) :
    (s.setSlot i (some c)).poolLaw := by
  have hverify : ∀ {j e}, s.pool.context j = some e → e.role = .verify := fun {j e} he => by
    cases hr : e.role with
    | verify => rfl
    | patrol =>
      obtain ⟨k, hk⟩ := Pool.patrolSlot_isSome he hr
      rw [hnone] at hk
      cases hk
  have hother : ∀ {j e}, s.pool.context j = some e → e.seg ≠ c.seg := fun he hseg => by
    have hstate := hs.segState_of_context he
    rw [hseg, hst, hverify he] at hstate
    cases hstate
  have hbusy := hs.busy_of_segState hst
  obtain ⟨hlength, hunique, hagree, hhashing, hcount, hnodup, hgaps, -⟩ := hs
  refine ⟨by simpa using hlength, ?_, ?_, ?_, hcount, hnodup, hgaps, fun hp => absurd hp hbusy⟩
  · intro j k e f he hf h
    rcases context_setSlot_cases he with ⟨rfl, hx⟩ | ⟨-, he'⟩ <;>
      rcases context_setSlot_cases hf with ⟨rfl, hy⟩ | ⟨-, hf'⟩
    · rfl
    · cases hx
      rcases h with h | ⟨-, h⟩
      · exact absurd h.symm (hother hf')
      · rw [hverify hf'] at h; cases h
    · cases hy
      rcases h with h | ⟨h, -⟩
      · exact absurd h (hother he')
      · rw [hverify he'] at h; cases h
    · exact hunique j k e f he' hf' h
  · intro j e he
    rcases context_setSlot_cases he with ⟨rfl, hx⟩ | ⟨hj, he⟩
    · cases hx
      refine ⟨hfill, ?_⟩
      rw [hrole]
      exact hst
    · exact hagree j e he
  · intro g hg
    obtain ⟨j, e, he, heg⟩ := hhashing g hg
    have hj : j ≠ i := fun h => by rw [h, hfree] at he; cases he
    exact ⟨j, e, (context_setSlot_ne hj _).trans he, heg⟩

/-- A freed context whose segment leaves HASHING or VERIFIED with it, or never was HASHING. -/
theorem poolLaw.free (hs : s.poolLaw) {i : Nat} {c : Context} (hc : s.pool.context i = some c)
    (hpool : t.pool.slots = (s.setSlot i none).pool.slots) (hphase : t.control.phase = s.control.phase)
    (hseg : ∀ k, k ≠ c.seg → t.segState k = s.segState k) (hfreed : t.segState c.seg ≠ some .hashing)
    (hcount : t.pool.gaps.length ≤ 32) (hnodup : t.pool.gaps.Nodup)
    (hgaps : ∀ g ∈ t.pool.gaps, t.segState g = some .unseen ∨ t.segState g = some .hashing) : t.poolLaw := by
  have hslot : ∀ j, t.pool.context j = (s.setSlot i none).pool.context j := fun j => by
    unfold Pool.context
    rw [hpool]
  have hold : ∀ {j e}, t.pool.context j = some e → j ≠ i ∧ s.pool.context j = some e := fun he =>
    of_context_setSlot_none ((hslot _).symm.trans he)
  have hother : ∀ {j e}, j ≠ i → s.pool.context j = some e → e.seg ≠ c.seg := fun hj he => hs.seg_ne hc he hj
  have hbusy := hs.busy_of_context hc
  obtain ⟨hlength, hunique, hagree, hhashing, -⟩ := hs
  refine ⟨by rw [hpool]; simpa using hlength, ?_, ?_, ?_, hcount, hnodup, hgaps, fun hp => ?_⟩
  · exact fun j k e f he hf h => hunique j k e f (hold he).2 (hold hf).2 h
  · intro j e he
    obtain ⟨hj, he⟩ := hold he
    refine ⟨(hagree j e he).1, ?_⟩
    rw [hseg _ (hother hj he)]
    exact (hagree j e he).2
  · intro g hg
    have hgc : g ≠ c.seg := fun h => hfreed (h ▸ hg)
    rw [hseg g hgc] at hg
    obtain ⟨j, e, he, heg⟩ := hhashing g hg
    have hj : j ≠ i := fun h => by
      subst h
      rw [hc] at he
      cases he
      exact hgc heg.symm
    exact ⟨j, e, (hslot j).trans ((context_setSlot_ne hj _).trans he), heg⟩
  · rw [hphase] at hp
    exact absurd hp hbusy

theorem poolLaw.verdict (hs : s.poolLaw) {i : Nat} {c : Context} (hc : s.pool.context i = some c) (equal : Bool) :
    (((s.setSegState c.seg (Machine.verdict equal)).setSlot i none).purgeGap c.seg).poolLaw := by
  have hseg : ∀ k, k ≠ c.seg → (((s.setSegState c.seg (Machine.verdict equal)).setSlot i none).purgeGap
      c.seg).segState k = s.segState k := fun k hk => segState_setSegState_ne hk _
  have hown := hs.segState_of_context hc
  obtain ⟨hcount, hnodup, hgaps⟩ := hs.gaps_law
  refine hs.free hc rfl rfl hseg ?_ ?_ ?_ ?_
  · change (s.setSegState c.seg (Machine.verdict equal)).segState c.seg ≠ _
    rw [segState_setSegState, if_pos rfl, hown]
    cases equal <;> exact fun h => nomatch h
  · exact Nat.le_trans (List.length_filter_le _ _) hcount
  · exact hnodup.filter _
  · intro g hg
    obtain ⟨hg, hne⟩ := List.mem_filter.1 hg
    rw [hseg g (by simpa using hne)]
    exact hgaps g hg

/-- A segment that joins the gap queue is there once, within the queue's 32 places (R113). -/
theorem appendGap_gaps (s : State) (g : Nat) (hcount : s.pool.gaps.length ≤ 32) (hnodup : s.pool.gaps.Nodup) :
    (s.appendGap g).pool.gaps.length ≤ 32 ∧ (s.appendGap g).pool.gaps.Nodup ∧
      ∀ x ∈ (s.appendGap g).pool.gaps, x = g ∨ x ∈ s.pool.gaps := by
  unfold appendGap
  split
  next => exact ⟨hcount, hnodup, fun _ h => .inr h⟩
  next h =>
    simp only [Bool.or_eq_true, List.contains_iff_mem, decide_eq_true_eq, not_or, Nat.not_le] at h
    refine ⟨?_, ?_, ?_⟩
    · simp only [List.length_append, List.length_singleton]
      omega
    · refine List.nodup_append.2 ⟨hnodup, List.pairwise_singleton _ g, fun x hx y hy hxy => h.1 ?_⟩
      rwa [← List.mem_singleton.1 hy, ← hxy]
    · intro x hx
      simpa [or_comm] using hx

theorem appendGap_segState (s : State) (g k : Nat) : (s.appendGap g).segState k = s.segState k := by
  unfold appendGap
  split <;> rfl

theorem appendGap_slots (s : State) (g : Nat) : (s.appendGap g).pool.slots = s.pool.slots := by
  unfold appendGap
  split <;> rfl

theorem poolLaw.append (hs : s.poolLaw) {g : Nat} (hg : s.segState g = some .unseen ∨ s.segState g = some .hashing) :
    (s.appendGap g).poolLaw := by
  have hslot : ∀ j, (s.appendGap g).pool.context j = s.pool.context j := fun j => by
    unfold Pool.context
    rw [appendGap_slots]
  have hbusy : ¬ (s.control.phase = .hold ∨ s.control.phase = .recovery) := by
    rcases hg with h | h <;> exact hs.busy_of_segState h
  obtain ⟨hlength, hunique, hagree, hhashing, hcount, hnodup, hgaps, -⟩ := hs
  obtain ⟨hcount', hnodup', hmem⟩ := s.appendGap_gaps g hcount hnodup
  unfold poolLaw contextAgrees
  simp only [hslot, appendGap_segState, appendGap_slots, appendGap_control]
  refine ⟨hlength, hunique, hagree, hhashing, hcount', hnodup', fun x hx => ?_, fun hp => absurd hp hbusy⟩
  rcases hmem x hx with rfl | hx
  · exact hg
  · exact hgaps x hx

theorem poolLaw.release (hs : s.poolLaw) {i : Nat} {c : Context} (hc : s.pool.context i = some c) :
    (((s.setSlot i none).setSegState c.seg .unseen).appendGap c.seg).poolLaw := by
  have hseg : ∀ k, ((s.setSlot i none).setSegState c.seg .unseen).segState k =
      if k = c.seg then some .unseen else s.segState k := fun k => by
    rw [segState_setSegState, show (s.setSlot i none).segState c.seg = _ from hs.segState_of_context hc]
    rfl
  obtain ⟨hcount, hnodup, hgaps⟩ := hs.gaps_law
  have hfree : ((s.setSlot i none).setSegState c.seg .unseen).poolLaw := by
    refine hs.free hc rfl rfl (fun k hk => ?_) ?_ hcount hnodup (fun g hg => ?_)
    · rw [hseg, if_neg hk]
    · rw [hseg, if_pos rfl]
      decide
    · rw [hseg]
      split
      · exact .inl rfl
      · exact hgaps g hg
  exact hfree.append (.inl (by rw [hseg, if_pos rfl]))

theorem poolLaw.releasePatrol (hs : s.poolLaw) {i : Nat} {c : Context} (hc : s.pool.context i = some c)
    (hrole : c.role = .patrol) : (s.setSlot i none).poolLaw := by
  obtain ⟨hcount, hnodup, hgaps⟩ := hs.gaps_law
  refine hs.free hc rfl rfl (fun _ _ => rfl) ?_ hcount hnodup hgaps
  change s.segState c.seg ≠ _
  rw [hs.segState_of_context hc, hrole]
  decide

theorem poolLaw.purge (hs : s.poolLaw) (g : Nat) : (s.purgeGap g).poolLaw := by
  obtain ⟨hlength, hunique, hagree, hhashing, hcount, hnodup, hgaps, hempty⟩ := hs
  refine ⟨hlength, hunique, hagree, hhashing, Nat.le_trans (List.length_filter_le _ _) hcount, hnodup.filter _,
    fun x hx => hgaps x (List.mem_filter.1 hx).1, fun hp => ?_⟩
  obtain ⟨h1, h2, h3⟩ := hempty hp
  exact ⟨h1, by simp [h2], h3⟩

/-! ### A forwarded write -/

theorem mem_markedSegments {run : SegmentRun} {e : SegEntry} (he : e ∈ s.segments) (h : s.marks run e = true) :
    e.seg ∈ s.markedSegments run :=
  List.mem_map_of_mem (List.mem_filter.2 ⟨he, h⟩)

theorem entry_reportWrite (s : State) (run : SegmentRun) (g : Nat) :
    (s.reportWrite run).entry g =
      (s.entry g).map (fun e => if s.marks run e then { e with state := .dirty } else e) := by
  have hseg : ∀ e : SegEntry, (if s.marks run e then { e with state := .dirty } else e).seg = e.seg := by
    intro e
    split <;> rfl
  unfold entry reportWrite
  simp only [List.find?_map, Function.comp_def, hseg]

theorem segState_reportWrite_of_not_mem {run : SegmentRun} {g : Nat} (hg : g ∉ s.markedSegments run) :
    (s.reportWrite run).segState g = s.segState g := by
  unfold segState
  rw [entry_reportWrite]
  cases he : s.entry g with
  | none => rfl
  | some e =>
    have hmem : e ∈ s.segments := List.mem_of_find?_eq_some he
    have hseg : e.seg = g := by simpa using List.find?_some he
    have hnot : ¬ s.marks run e = true := fun h => hg (hseg ▸ mem_markedSegments hmem h)
    simp [hnot]

/-- A segment that is HASHING after a forwarded write was so before, and is not marked by it. -/
theorem hashing_of_reportWrite {run : SegmentRun} {g : Nat} (h : (s.reportWrite run).segState g = some .hashing) :
    s.segState g = some .hashing ∧ g ∉ s.markedSegments run := by
  unfold segState at h ⊢
  rw [entry_reportWrite] at h
  cases he : s.entry g with
  | none => rw [he] at h; cases h
  | some e =>
    rw [he] at h
    have hseg : e.seg = g := by simpa using List.find?_some he
    have hnot : s.marks run e = false := by
      cases hmarks : s.marks run e with
      | false => rfl
      | true => simp [hmarks] at h
    have hstate : e.state = .hashing := by simpa [hnot] using h
    refine ⟨by simp [hstate], fun hg => ?_⟩
    obtain ⟨f, hf, hfg⟩ := List.mem_map.1 hg
    have hmarks := (List.mem_filter.1 hf).2
    unfold marks at hnot hmarks
    rw [hseg, hstate] at hnot
    rw [hfg, Bool.and_eq_true] at hmarks
    simp [hmarks.1] at hnot

theorem context_reportWrite (s : State) (run : SegmentRun) (i : Nat) :
    (s.reportWrite run).pool.context i = discardIn (s.markedSegments run) (s.pool.context i) := by
  unfold Pool.context reportWrite
  simp only [List.getD_eq_getElem?_getD, List.getElem?_map]
  cases s.pool.slots[i]? <;> rfl

theorem discardIn_eq_some {marked : List Nat} {x : Option Context} {c : Context}
    (h : discardIn marked x = some c) : x = some c ∧ c.seg ∉ marked := by
  cases x with
  | none => cases h
  | some d =>
    unfold discardIn at h
    dsimp only at h
    split at h
    · cases h
    next hmem =>
      cases h
      exact ⟨rfl, by simpa using hmem⟩

theorem discardIn_of_not_mem {marked : List Nat} {c : Context} (h : c.seg ∉ marked) :
    discardIn marked (some c) = some c := by
  simp [discardIn, h]

theorem poolLaw.mark (hs : s.poolLaw) (run : SegmentRun) : (s.reportWrite run).poolLaw := by
  have hold : ∀ {j e}, (s.reportWrite run).pool.context j = some e →
      s.pool.context j = some e ∧ e.seg ∉ s.markedSegments run := fun he =>
    discardIn_eq_some ((s.context_reportWrite run _).symm.trans he)
  obtain ⟨hlength, hunique, hagree, hhashing, hcount, hnodup, hgaps, hempty⟩ := hs
  refine ⟨by simpa [reportWrite] using hlength, ?_, ?_, ?_, Nat.le_trans (List.length_filter_le _ _) hcount,
    hnodup.filter _, ?_, ?_⟩
  · exact fun j k e f he hf h => hunique j k e f (hold he).1 (hold hf).1 h
  · intro j e he
    obtain ⟨he, hnot⟩ := hold he
    refine ⟨(hagree j e he).1, ?_⟩
    rw [segState_reportWrite_of_not_mem hnot]
    exact (hagree j e he).2
  · intro g hg
    obtain ⟨hg, hnot⟩ := hashing_of_reportWrite hg
    obtain ⟨j, e, he, heg⟩ := hhashing g hg
    refine ⟨j, e, ?_, heg⟩
    rw [context_reportWrite, he, discardIn_of_not_mem (heg ▸ hnot)]
  · intro g hg
    obtain ⟨hg, hnot⟩ := List.mem_filter.1 hg
    rw [segState_reportWrite_of_not_mem (by simpa using hnot)]
    exact hgaps g hg
  · intro hp
    obtain ⟨hsegments, hqueue, hslots⟩ := hempty hp
    refine ⟨by simp [reportWrite, hsegments], by simp [reportWrite, hqueue], fun i => ?_⟩
    rw [context_reportWrite, hslots]
    rfl

/-! ### An empty pool -/

theorem context_afterReset (i : Nat) : Pool.afterReset.context i = none := by
  unfold Pool.context Pool.afterReset
  rw [List.getD_eq_getElem?_getD, List.getElem?_replicate]
  split <;> rfl

theorem poolLaw_of_empty (hpool : s.pool = Pool.afterReset) (hhashing : ∀ g, s.segState g ≠ some .hashing)
    (hempty : s.control.phase = .hold ∨ s.control.phase = .recovery → s.segments = []) : s.poolLaw := by
  have hnone : ∀ i, s.pool.context i = none := fun i => hpool ▸ context_afterReset i
  unfold poolLaw
  simp only [hnone]
  refine ⟨by rw [hpool]; rfl, ?_, ?_, fun g hg => absurd hg (hhashing g), ?_, ?_, ?_,
    fun hp => ⟨hempty hp, by rw [hpool]; rfl, fun _ => trivial⟩⟩
  · intro _ _ _ _ h; cases h
  · intro _ _ h; cases h
  · rw [hpool]; exact Nat.zero_le _
  · rw [hpool]; exact List.nodup_nil
  · rw [hpool]; intro g hg; cases hg

/-- After a discard no segment is HASHING, and the others keep their states (R85). -/
theorem segState_discardedSegments (hs : s.poolLaw) (g : Nat) :
    State.segState { s with segments := discardedSegments s.segments s.pool, pool := Pool.afterReset } g =
      if s.segState g = some .hashing then some .unseen else s.segState g := by
  have hseg : ∀ e : SegEntry, (if e.state = .hashing ∧
      (s.pool.verifyContexts (fun c => c.seg == e.seg)).isEmpty = false then { e with state := .unseen }
      else e).seg = e.seg := fun e => by split <;> rfl
  have hentry : State.entry { s with segments := discardedSegments s.segments s.pool, pool := Pool.afterReset } g =
      (s.entry g).map (fun e => if e.state = .hashing ∧
        (s.pool.verifyContexts (fun c => c.seg == e.seg)).isEmpty = false then { e with state := .unseen } else e) := by
    simp only [entry, discardedSegments, List.find?_map, Function.comp_def, hseg]
  unfold segState
  rw [hentry]
  cases he : s.entry g with
  | none => rfl
  | some e =>
    have heg : e.seg = g := by simpa using List.find?_some he
    simp only [Option.map_some, Option.some.injEq]
    by_cases hhash : e.state = .hashing
    · have hhashing : s.segState g = some .hashing := by simp [segState, he, hhash]
      obtain ⟨-, -, -, hlive, -⟩ := id hs
      obtain ⟨i, c, hc, hcg⟩ := hlive g hhashing
      have hrole := hs.role_of_hashing hc (hcg ▸ hhashing)
      have hmem : (i, c) ∈ s.pool.verifyContexts (fun c => c.seg == e.seg) :=
        Pool.mem_verifyContexts.2 ⟨hc, hrole, by simp [hcg, heg]⟩
      have hsome : (s.pool.verifyContexts (fun c => c.seg == e.seg)).isEmpty = false :=
        List.isEmpty_eq_false_iff_exists_mem.2 ⟨_, hmem⟩
      rw [if_pos ⟨hhash, hsome⟩, if_pos hhash]
    · rw [if_neg (fun hboth => hhash hboth.1), if_neg hhash]

theorem poolLaw.discard (hs : s.poolLaw) :
    ({ s with segments := discardedSegments s.segments s.pool, pool := Pool.afterReset } : State).poolLaw := by
  refine poolLaw_of_empty rfl (fun g hg => ?_) (fun hp => ?_)
  · rw [segState_discardedSegments hs] at hg
    split at hg
    next => cases hg
    next hkept => exact hkept hg
  · have hnil : s.segments = [] := (hs.empty_outside_run hp).1
    simp [discardedSegments, hnil]

theorem segState_buildSegments {s : State} {regions : List Region} {digests : List Digest}
    (h : s.segments = buildSegments regions digests) (g : Nat) : s.segState g ≠ some .hashing := by
  unfold segState entry
  rw [h]
  intro hg
  obtain ⟨e, he, hst⟩ := Option.map_eq_some_iff.1 hg
  obtain ⟨x, -, rfl⟩ := List.mem_map.1 (List.mem_of_find?_eq_some he)
  cases hst

end State

open State in
theorem PoolMove.poolLaw (h : PoolMove s t) (hs : s.poolLaw) : t.poolLaw := by
  cases h with
  | change i c d hc hseg hrole hfill => exact hs.change hc hseg hrole hfill
  | grant i c hi hfree hrole hfill hst => exact hs.grant hi hfree hrole hfill hst
  | grantPatrol i c hi hfree hnone hrole hfill hst => exact hs.grantPatrol hi hfree hnone hrole hfill hst
  | verdict i c hc equal => exact hs.verdict hc equal
  | release i c hc => exact hs.release hc
  | releasePatrol i c hc hrole => exact hs.releasePatrol hc hrole
  | purge g => exact hs.purge g
  | append g hst => exact hs.append hst
  | mark run => exact hs.mark run
  | discard => exact hs.discard

namespace State

theorem poolLaw.of_lawView (hs : s.poolLaw) (h : t.lawView = s.lawView) : t.poolLaw := by
  have hview : t.lawView.poolLaw := h ▸ (show s.lawView.poolLaw from hs)
  exact hview

/-- The part enters HALTED with its pool as it stands, but for the record of an open transaction. -/
theorem poolLaw.halt (hs : s.poolLaw) : s.enterHalted.poolLaw := by
  obtain ⟨_, _, h⟩ := s.enterHalted_frame
  rw [h]
  obtain ⟨hlength, hunique, hagree, hhashing, hcount, hnodup, hgaps, -⟩ := hs
  exact ⟨hlength, hunique, hagree, hhashing, hcount, hnodup, hgaps, fun hp => by rcases hp with hp | hp <;> cases hp⟩

end State

theorem Move.poolLaw (hR : R) (h : Move R H s t) (hs : s.poolLaw) : t.poolLaw := by
  cases h with
  | quiet _ hq => exact hs.of_lawView hq
  | pool _ hp => exact hp.poolLaw hs
  | settle =>
    obtain ⟨_, _, _, _, _, _, _, _, _, _, h⟩ := s.settleGates_frame
    rw [h]
    exact hs
  | push k r g a d =>
    obtain ⟨_, _, h⟩ := s.pushFault_frame k r g a d
    rw [h]
    exact hs
  | halt => exact hs.halt
  | recover =>
    obtain ⟨_, _, h⟩ := s.enterRecovery_frame
    rw [h]
    exact State.poolLaw_of_empty rfl (fun g => by simp [State.segState, State.entry]) (fun _ => rfl)
  | commit c copy d hat =>
    have hphase := (hat hR).1
    obtain ⟨-, hgaps, hslots⟩ := hs.empty_outside_run (.inl hphase)
    obtain ⟨hlength, -⟩ := hs
    unfold State.poolLaw
    simp only [show ∀ i, (s.commit c copy d).pool.context i = none from hslots]
    refine ⟨hlength, ?_, ?_, fun g hg => absurd hg (State.segState_buildSegments rfl g), ?_, ?_, ?_, ?_⟩
    · intro _ _ _ _ h; cases h
    · intro _ _ h; cases h
    · rw [show (s.commit c copy d).pool.gaps = [] from hgaps]; exact Nat.zero_le _
    · rw [show (s.commit c copy d).pool.gaps = [] from hgaps]; exact List.nodup_nil
    · rw [show (s.commit c copy d).pool.gaps = [] from hgaps]; intro g hg; cases hg
    · rintro (hp | hp) <;> cases hp
  | _ => exact hs

theorem afterReset_poolLaw (rest : List Instr) (f : Fuses) (a b : Bool) (n : Nat) :
    (State.afterReset rest f a b n).poolLaw :=
  State.poolLaw_of_empty rfl (fun _ h => nomatch h) (fun _ => rfl)

/-- Settles O55: RESET empties the pool and the queue, and every move of any other command keeps the law. -/
theorem poolLawIsKeptByEveryStep : Obligations.PoolLawIsKeptByEveryStep := by
  intro s t hstep hread hpool
  by_cases hreset : s.pending.head? = some .reset
  · obtain ⟨rest, f, a, b, n, -, h⟩ := step_of_reset hreset
    rw [hstep] at h
    cases h
    exact afterReset_poolLaw rest f a b n
  · obtain ⟨rest, hmoves⟩ := step_moves hreset
    exact (hmoves t hstep).keeps (fun _ _ hm => hm.poolLaw hread) hpool

/-- Settles O59: each law of the state after RESET, for the parameters of power-on. -/
theorem lawsHoldAtReset : Obligations.LawsHoldAtReset := by
  obtain ⟨hread, hhalted, hcrst⟩ := afterReset_laws [] Fuses.unprovisioned false false 0
  exact ⟨State.afterReset_gateLaw .., afterReset_poolLaw .., hread, hhalted, hcrst,
    ⟨Nat.zero_le _, fun _ h => nomatch h⟩, rfl, rfl, rfl⟩

end Sys2Proof.Machine
end

section
/-!
The block and its queue, reset, and the upstream port (chapter 1): O1, O3, O4, O13 to O21, O23 to O25 and O60.
-/
namespace Sys2Proof.Machine
variable {s : State}

/-- Settles O1, by the two cases of the queue. -/
theorem stepRunsTheFrontCommand : Obligations.StepRunsTheFrontCommand := by
  intro s
  refine ⟨fun c rest h => ?_, fun h => ?_⟩
  · simp only [step, h]
  · have hidle : step s = .next s.tick := by simp only [step, h]
    rw [hidle, State.tick]
    split
    next hrst => simp
    next hrst => simp

/-! ### What every command answers -/

/-- An outcome is a next state. -/
def isNext (o : Host.Outcome State Fault Refusal) : Prop := ∃ t, o = .next t

theorem isNext_whenWellFormed {i : Instr} (h : i.wellFormed = true) (t : State) : isNext (whenWellFormed i t) :=
  ⟨t, if_pos h⟩

theorem execResetEnd_isNext (s : State) : isNext (execResetEnd s) := by
  unfold execResetEnd
  split
  · cases s.fuses.keyCheck <;> exact ⟨_, rfl⟩
  · exact ⟨_, rfl⟩

theorem execIdentityReadEnd_isNext (b0 b1 b2 : Byte) (s : State) : isNext (execIdentityReadEnd b0 b1 b2 s) := by
  unfold execIdentityReadEnd
  split <;> exact ⟨_, rfl⟩

theorem execUpstreamCsAssert_isNext (p : Port) (s : State) : isNext (execUpstreamCsAssert p s) := by
  unfold execUpstreamCsAssert
  split <;> exact ⟨_, rfl⟩

theorem execUpstreamCsDeassert_isNext (p : Port) (s : State) : isNext (execUpstreamCsDeassert p s) := by
  unfold execUpstreamCsDeassert
  split <;> exact ⟨_, rfl⟩

theorem execCommandByte_isNext (b : Byte) (s : State) : isNext (execCommandByte b s) := by
  unfold execCommandByte
  split <;> exact ⟨_, rfl⟩

theorem execReadDataByte_isNext (b : Byte) (s : State) : isNext (execReadDataByte b s) := by
  unfold execReadDataByte
  split
  · exact ⟨_, rfl⟩
  next t ht =>
    split
    · cases t.disposition <;> exact ⟨_, rfl⟩
    · split <;> exact ⟨_, rfl⟩

theorem execFetch_isNext (s : State) : isNext (execFetch s) := by
  unfold execFetch
  split <;> exact ⟨_, rfl⟩

theorem execFuseBitVerify_isNext (blown : Bool) (s : State) : isNext (execFuseBitVerify blown s) := by
  unfold execFuseBitVerify
  split
  · exact ⟨_, rfl⟩
  · split <;> exact ⟨_, rfl⟩

theorem execFetchDataByte_isNext (b : Byte) (s : State) : isNext (execFetchDataByte b s) := by
  unfold execFetchDataByte
  split
  · exact ⟨_, rfl⟩
  · split <;> exact ⟨_, rfl⟩

theorem execPortAvailable_isNext (p : Port) (s : State) : isNext (execPortAvailable p s) := by
  unfold execPortAvailable
  split
  · exact ⟨_, rfl⟩
  · split <;> exact ⟨_, rfl⟩

theorem execSequenceTimerExpiry_isNext (s : State) : isNext (execSequenceTimerExpiry s) := by
  unfold execSequenceTimerExpiry
  split
  · exact ⟨_, rfl⟩
  · split
    · exact ⟨_, rfl⟩
    · cases s.gates.print.state <;> exact ⟨_, rfl⟩

theorem execPatrolTimerExpiry_isNext (s : State) : isNext (execPatrolTimerExpiry s) := by
  unfold execPatrolTimerExpiry
  split <;> exact ⟨_, rfl⟩

theorem execDeadlineExpiry_isNext (s : State) : isNext (execDeadlineExpiry s) := by
  unfold execDeadlineExpiry
  split <;> exact ⟨_, rfl⟩

theorem execTamperSample_isNext (high : Bool) (s : State) : isNext (execTamperSample high s) := by
  unfold execTamperSample
  split <;> exact ⟨_, rfl⟩

theorem execAlertPulseEnd_isNext (s : State) : isNext (execAlertPulseEnd s) := by
  unfold execAlertPulseEnd
  split <;> exact ⟨_, rfl⟩

theorem execAlertGapEnd_isNext (s : State) : isNext (execAlertGapEnd s) := by
  unfold execAlertGapEnd
  split <;> exact ⟨_, rfl⟩

theorem execSettleTimerExpiry_isNext (s : State) : isNext (execSettleTimerExpiry s) := by
  unfold execSettleTimerExpiry
  split
  · exact ⟨_, rfl⟩
  · cases s.control.phase <;> exact ⟨_, rfl⟩

theorem execWakeIdentityReadEnd_isNext (b0 b1 b2 : Byte) (s : State) :
    isNext (execWakeIdentityReadEnd b0 b1 b2 s) := by
  unfold execWakeIdentityReadEnd
  split <;> exact ⟨_, rfl⟩

theorem exec_isNext {c : Instr} (h : c.wellFormed = true) (s : State) : isNext (exec c s) := by
  cases c with
  | resetEnd => exact execResetEnd_isNext s
  | identityReadEnd => exact execIdentityReadEnd_isNext _ _ _ s
  | upstreamCsAssert => exact execUpstreamCsAssert_isNext _ s
  | upstreamCsDeassert => exact execUpstreamCsDeassert_isNext _ s
  | commandByte => exact execCommandByte_isNext _ s
  | readDataByte => exact execReadDataByte_isNext _ s
  | fetch => exact execFetch_isNext s
  | fuseBitVerify => exact execFuseBitVerify_isNext _ s
  | fetchDataByte => exact execFetchDataByte_isNext _ s
  | portAvailable => exact execPortAvailable_isNext _ s
  | sequenceTimerExpiry => exact execSequenceTimerExpiry_isNext s
  | patrolTimerExpiry => exact execPatrolTimerExpiry_isNext s
  | deadlineExpiry => exact execDeadlineExpiry_isNext s
  | tamperSample => exact execTamperSample_isNext _ s
  | alertPulseEnd => exact execAlertPulseEnd_isNext s
  | alertGapEnd => exact execAlertGapEnd_isNext s
  | settleTimerExpiry => exact execSettleTimerExpiry_isNext s
  | wakeIdentityReadEnd => exact execWakeIdentityReadEnd_isNext _ _ _ s
  | headerReadEnd | bodyReadEnd | addressComplete | unknownRequest | requestLengthByte | wakeCheck =>
    exact isNext_whenWellFormed h _
  | _ => exact ⟨_, rfl⟩

theorem exec_of_ill_formed {c : Instr} (h : c.wellFormed = false) (s : State) : exec c s = .fault .illFormed := by
  cases c with
  | headerReadEnd | bodyReadEnd | addressComplete | unknownRequest | requestLengthByte | wakeCheck =>
    exact if_neg (by simp [h])
  | _ => exact nomatch h

/-- A move leaves the queue alone. -/
theorem Move.pending {R H : Prop} {s t : State} (h : Move R H s t) : t.pending = s.pending := by
  cases h with
  | quiet _ hq =>
    have hview : t.lawView.pending = s.lawView.pending := by rw [hq]
    exact hview
  | pool _ hp =>
    obtain ⟨_, _, rfl⟩ := hp.frame
    rfl
  | settle =>
    obtain ⟨_, _, _, _, _, _, _, _, _, _, h⟩ := s.settleGates_frame
    rw [h]
  | push k r g a d =>
    obtain ⟨_, _, h⟩ := s.pushFault_frame k r g a d
    rw [h]
  | halt =>
    obtain ⟨_, _, h⟩ := s.enterHalted_frame
    rw [h]
  | recover =>
    obtain ⟨_, _, h⟩ := s.enterRecovery_frame
    rw [h]
  | _ => rfl

/-- Settles O2: each command's moves leave the queue alone, and RESET keeps it. -/
theorem wellFormedCommandsComplete : Obligations.WellFormedCommandsComplete := by
  intro c s
  refine ⟨fun h => ?_, fun h => exec_of_ill_formed h s⟩
  obtain ⟨t, ht⟩ := exec_isNext h s
  refine ⟨t, ht, ?_⟩
  by_cases hc : c = .reset
  · subst hc
    obtain ⟨f, n, hcut, -⟩ := s.cutAdvance_spec
    have hreset : exec .reset s = .next (State.afterReset s.cutAdvance.pending s.cutAdvance.fuses
      s.cutAdvance.port0.upstream s.cutAdvance.port1.upstream s.cutAdvance.drawn) := rfl
    rw [hreset, hcut] at ht
    cases ht
    rfl
  · exact (exec_moves hc t ht).keeps (P := fun u => u.pending = s.pending) (fun _ _ hm h => hm.pending.trans h) rfl

/-! ### Reset -/

/-- Settles O3: the reset values, by evaluation. -/
theorem resetStateIsAsTheManualGivesIt : Obligations.ResetStateIsAsTheManualGivesIt := by
  refine ⟨rfl, rfl, rfl, rfl, rfl, rfl, rfl, rfl, rfl, rfl, rfl, rfl, rfl, rfl, rfl, rfl, rfl, rfl, rfl, rfl, rfl,
    rfl, rfl, fun p => ?_, rfl, rfl⟩
  cases p <;> rfl

/-- Settles O4: RESET is `State.afterReset` of what a cut ADVANCE leaves of the fuses (R39). -/
theorem resetKeepsTheFusesAlone : Obligations.ResetKeepsTheFusesAlone := by
  intro s
  cases hadvance : s.advance with
  | nil =>
    refine ⟨s.fuses, s.drawn, ?_, fun _ => rfl, fun _ _ h => nomatch h⟩
    have hcut : s.cutAdvance = s := by rw [State.cutAdvance, hadvance]
    change execReset s = _
    rw [execReset, hcut]
    rfl
  | cons target rest =>
    refine ⟨if Config.cutBitBlown s.drawn then s.fuses.blow target else s.fuses, s.drawn + 1, ?_,
      (fun h => nomatch h), ?_⟩
    · change execReset s = _
      rw [execReset, State.cutAdvance, hadvance]
      rfl
    · rintro _ _ ⟨⟩
      split
      · exact .inr rfl
      · exact .inl rfl

/-! ### Where the part takes traffic -/

namespace State

theorem listening_iff : s.listening = true ↔ s.control.phase = .run ∨ s.control.phase = .recovery := by
  simp [listening]

theorem not_listening (h : s.control.phase = .hold ∨ s.control.phase = .halted) : s.listening = false := by
  rcases h with h | h <;> simp [listening, h]

theorem setPort_upstream_of_eq {p : Port} (b : Bool) (h : (s.port p).upstream = b) :
    s.setPort p { s.port p with upstream := b } = s := by
  subst h
  cases p <;> rfl

end State

/-- Settles O16: outside RUN and RECOVERY the part is not listening, and with no transaction no byte has one. -/
theorem heldTrafficIsIgnored : Obligations.HeldTrafficIsIgnored := by
  intro p b bytes s hphase hnone hlength
  have hdeaf : ∀ q, (s.setPort p q).listening = false := fun q =>
    State.not_listening (by rwa [State.setPort_control])
  refine ⟨?_, ?_, ?_, ?_, ?_, ?_⟩
  · change execUpstreamCsAssert p s = _
    unfold execUpstreamCsAssert
    split
    next h => rw [State.setPort_upstream_of_eq true h]
    next => simp only [hdeaf]; rfl
  · change execUpstreamCsDeassert p s = _
    unfold execUpstreamCsDeassert
    split
    next => simp only [hdeaf]; rfl
    next h => rw [State.setPort_upstream_of_eq false (by simpa using h)]
  · change execCommandByte b s = _
    rw [execCommandByte, hnone]
  · change execAddressComplete bytes s = _
    rw [execAddressComplete, hnone, whenWellFormed, if_pos]
    rcases hlength with h | h <;> simp [Instr.wellFormed, h]
  · change execReadDataByte b s = _
    rw [execReadDataByte, hnone]
  · change execFetch s = _
    rw [execFetch, State.channel, hnone]

end Sys2Proof.Machine
end

section
/-!
The upstream port: what an assertion and a command byte do (chapter 1, R187).
-/
namespace Sys2Proof.Machine
variable {s : State}

namespace State

/-- A FILL or PATROL read is in progress on a port (R22). -/
def fillsOn (s : State) (p : Port) : Prop :=
  ∃ r i, s.engine.read = some r ∧ r.port = p ∧ (r.kind = .fill i ∨ r.kind = .patrol i)

theorem abortFill_of_none {p : Port} (h : ¬ s.fillsOn p) : s.abortFill p = s := by
  unfold abortFill
  split
  next => rfl
  next r hread =>
    split
    next hport =>
      split
      next i hkind => exact absurd ⟨r, i, hread, hport, .inl hkind⟩ h
      next i hkind => exact absurd ⟨r, i, hread, hport, .inr hkind⟩ h
      all_goals rfl
    next => rfl

theorem abortFill_of_read {p : Port} {r : FetchRead} {i : Nat} (hread : s.engine.read = some r) (hport : r.port = p)
    (hkind : r.kind = .fill i ∨ r.kind = .patrol i) : s.abortFill p =
      (s.setSlot i ((s.pool.context i).map (fun c => { c with source := .nothing }))).endRead := by
  unfold abortFill
  rw [hread]
  dsimp only
  rw [if_pos hport]
  rcases hkind with h | h <;> simp only [h]

/-- The fetch read in progress ends with its port idle (R129). -/
theorem endRead_of_read {r : FetchRead} (h : s.engine.read = some r) : s.endRead =
    { s.setPort r.port (s.port r.port).idle with engine := { s.engine with job := .idle, read := none } } := by
  unfold endRead closeRead
  rw [h]

/-- An assertion that the part takes (R1, R3). -/
theorem assert_of_listening {p : Port} (hphase : s.control.phase = .run ∨ s.control.phase = .recovery)
    (h : (s.port p).upstream = false) : exec (.upstreamCsAssert p) s =
      .next ((s.setPort p { s.port p with upstream := true }).selectPort p) := by
  change execUpstreamCsAssert p s = _
  unfold execUpstreamCsAssert
  rw [if_neg (by simp [h])]
  dsimp only
  rw [if_pos (listening_iff.2 (by rwa [setPort_control]))]

/-- What an assertion does outside DOZE, the read on its port aborted or not (R1, R3, R21). -/
theorem selectPort_of_power {p : Port} (h : s.power.state ≠ .doze) : s.selectPort p =
    let b := (s.abortFill p).setPort p ((s.abortFill p).port p).selected
    (if (s.port (otherPort p)).upstream then b else b.openTransaction p).judge := by
  unfold selectPort opensTransaction
  dsimp only
  rw [if_neg h]
  cases (s.port (otherPort p)).upstream <;> simp [h]

/-- The decode record of a transaction as it opens (R1, R3). -/
def opened (s : State) (p : Port) : Transaction :=
  { port := p, waking := decide (s.power.state = .waking), phase := s.control.phase, stage := .command
    command := none, entry := none, addressLength := 0, disposition := .pending, start := none
    current := 0, received := [], relayed := [], channel := .awaiting }

theorem openTransaction_eq (s : State) (p : Port) :
    s.openTransaction p = { s with transaction := some (s.opened p) } := rfl

/-- An assertion that is disregarded leaves the open transaction (R1). -/
theorem openTransaction_unless (s : State) (p : Port) (other : Bool) :
    (if other then s else s.openTransaction p) =
      { s with transaction := if other then s.transaction else some (s.opened p) } := by
  cases other <;> rfl

theorem judge_of_not_active (h : s.power.state ≠ .active) : s.judge = s := by
  have hfree : s.engineFree = false := by simp [engineFree, h]
  exact if_neg (by simp [hfree])

end State

/-- Settles O13: the assertion finds no read to abort. -/
theorem assertOpensUnlessTheOtherIsAsserted : Obligations.AssertOpensUnlessTheOtherIsAsserted := by
  intro p s hphase hup hdoze hnone
  have hfree : ∀ q, ¬ (s.setPort p q).fillsOn p := fun q ⟨r, i, hread, hport, hkind⟩ => by
    rw [State.setPort_engine] at hread
    rcases hkind with h | h
    · exact (hnone r i hread hport).1 h
    · exact (hnone r i hread hport).2 h
  rw [State.assert_of_listening hphase hup, State.selectPort_of_power (by rwa [State.setPort_power])]
  dsimp only
  rw [State.abortFill_of_none (hfree _), State.openTransaction_unless]
  cases p <;> rfl

/-- Settles O14: `State.startWaking` in DOZE, where the engine does not judge. -/
theorem assertOrWakeEdgeEndsDoze : Obligations.AssertOrWakeEdgeEndsDoze := by
  intro p s
  refine ⟨fun hphase => ⟨fun hdoze hread hup howner => ?_, fun hdoze => ?_⟩, fun h => ?_⟩
  · rw [State.assert_of_listening hphase hup]
    unfold State.selectPort State.opensTransaction
    dsimp only
    rw [if_pos (show (s.setPort p _).power.state = .doze by rwa [State.setPort_power]),
      State.abortFill_of_none (fun ⟨r, i, hr, _⟩ => by
        rw [State.startWaking_engine, State.setPort_engine, hread] at hr; cases hr)]
    have hopen : (decide ((s.setPort p { s.port p with upstream := true }).power.state = .doze) ||
        !((s.setPort p { s.port p with upstream := true }).port (otherPort p)).upstream) = true := by
      simp [hdoze]
    rw [if_pos hopen, State.openTransaction_eq, State.judge_of_not_active]
    · cases p with
      | p0 =>
        change s.port0.owner = _ at howner
        simp [State.opened, State.port, State.setPort, PortState.selected, State.startWaking, howner]
      | p1 =>
        change s.port1.owner = _ at howner
        simp [State.opened, State.port, State.setPort, PortState.selected, State.startWaking, howner]
    · simp
  · change execWakeEdge s = _
    rw [execWakeEdge, if_pos ⟨State.listening_iff.2 hphase, hdoze⟩]
    rfl
  · change execWakeEdge s = _
    rw [execWakeEdge, if_neg]
    rintro ⟨hlisten, hdoze⟩
    rcases h with h | h
    · exact h hdoze
    · rw [State.not_listening h] at hlisten
      cases hlisten

/-- Settles O15: the read is aborted, then the port changes owner. -/
theorem assertAbortsTheReadOnItsPort : Obligations.AssertAbortsTheReadOnItsPort := by
  intro p s r i c hphase hpower hup hread hport hkind hc
  subst hport
  have hactive : ∀ q, (s.setPort r.port q).power.state ≠ .doze := fun q => by
    rw [State.setPort_power, hpower]; decide
  rw [State.assert_of_listening (.inl hphase) hup, State.selectPort_of_power (hactive _)]
  dsimp only
  rw [State.abortFill_of_read (by rw [State.setPort_engine]; exact hread) rfl hkind,
    State.endRead_of_read (by rw [State.setSlot_engine, State.setPort_engine]; exact hread)]
  rw [State.openTransaction_unless]
  simp only [State.setPort_pool, hc]
  cases hr : r.port with
  | p0 =>
    simp [State.opened, State.port, State.setPort, PortState.selected, PortState.idle, hphase, hpower, otherPort]
    rfl
  | p1 =>
    simp [State.opened, State.port, State.setPort, PortState.selected, PortState.idle, hphase, hpower, otherPort]
    rfl

end Sys2Proof.Machine
end

section
/-!
The upstream port: command bytes, addresses, and the judgment of writes (chapter 1).
-/
namespace Sys2Proof.Machine
variable {s : State} {tr : Transaction}

/-! ### The command byte -/

theorem commandByte_of_command (h : s.transaction = some tr) (hstage : tr.stage = .command) (b : Byte) :
    exec (.commandByte b) s = .next (s.takeCommand tr b) := by
  change execCommandByte b s = _
  unfold execCommandByte
  rw [h]
  dsimp only
  rw [if_pos hstage]

namespace State

/-- The decode record of a listed command, framed by its entry (R5, R9). -/
def framed (s : State) (tr : Transaction) (b : Byte) (e : ClassEntry) : Transaction :=
  { tr with
    command := some b, received := [b], entry := some e, addressLength := s.resolveLength tr.port e.address
    stage := if s.resolveLength tr.port e.address = 0 then stageAfterAddress e.dummy else .address }

/-- The decode record of an unlisted command (R6). -/
def unframed (tr : Transaction) (b : Byte) : Transaction :=
  { tr with command := some b, received := [b], stage := .data }

theorem takeCommand_listed {b : Byte} {e : ClassEntry} (hb : b ≠ escapeByte) (he : s.lookup b = some e)
    (hwaking : tr.waking = false) : s.takeCommand tr b = s.disposeListed (s.framed tr b e) e b := by
  unfold takeCommand
  dsimp only
  rw [if_neg hb, he]
  dsimp only
  rw [if_neg (by simp [hwaking])]
  rfl

theorem takeCommand_unlisted {b : Byte} (hb : b ≠ escapeByte) (he : s.lookup b = none) (hwaking : tr.waking = false) :
    s.takeCommand tr b = match s.unlistedAction with
      | .pass => s.forward (unframed tr b)
      | .block => s.blockCommand (unframed tr b) b := by
  unfold takeCommand
  dsimp only
  rw [if_neg hb, he]
  dsimp only
  rw [if_neg (by simp [hwaking])]
  rfl

theorem takeCommand_listed_waking {b : Byte} {e : ClassEntry} (hb : b ≠ escapeByte) (he : s.lookup b = some e)
    (hwaking : tr.waking = true) :
    s.takeCommand tr b = s.setTransaction { s.framed tr b e with disposition := .drop } := by
  unfold takeCommand
  dsimp only
  rw [if_neg hb, he]
  dsimp only
  rw [if_pos hwaking]
  rfl

theorem takeCommand_unlisted_waking {b : Byte} (hb : b ≠ escapeByte) (he : s.lookup b = none)
    (hwaking : tr.waking = true) :
    s.takeCommand tr b = s.setTransaction { unframed tr b with disposition := .drop } := by
  unfold takeCommand
  dsimp only
  rw [if_neg hb, he]
  dsimp only
  rw [if_pos hwaking]
  rfl

/-- A blocked command: its record and its trips (R13). -/
theorem blockCommand_eq (hphase : s.control.phase ≠ .halted) (t : Transaction) (b : Byte) :
    s.blockCommand t b = State.settleGates { s with
      transaction := some { t with disposition := .block }
      faults := pushRecord s.faults ⟨.blocked, s.time, s.control.phase, none, none, none, b⟩
      alert := s.alert.push s.settings.alertMode s.time
      gates := { s.gates with
        print := { s.gates.print with latch := s.gates.print.latch || s.settings.printSet.getLsbD 2 }
        scan := { s.gates.scan with latch := s.gates.scan.latch || s.settings.scanSet.getLsbD 2 } } } := by
  unfold blockCommand
  rw [pushFault_of_not_halted (by exact hphase)]
  rfl

theorem forward_eq (s : State) (t : Transaction) : s.forward t =
    { s.setPort t.port { s.port t.port with select := true } with
      transaction := some { t with disposition := .forward, relayed := t.received.reverse } } := rfl

/-- TRACK takes the port's tracked mode (R9). -/
theorem resolveLength_eq (s : State) (p : Port) (l : AddressLength) : s.resolveLength p l = match l with
    | .zero => 0
    | .three => 3
    | .four => 4
    | .track => if (s.port p).tracked = .four then 4 else 3 := by
  cases l with
  | track =>
    unfold resolveLength
    cases (s.port p).tracked <;> simp
  | _ => rfl

end State

/-- Settles O17. -/
theorem escapeByteOpensARequest : Obligations.EscapeByteOpensARequest := by
  intro s tr h hstage
  rw [commandByte_of_command h hstage]
  rfl

/-- Settles O18: the class of a listed command decides its disposition. -/
theorem listedCommandsAreForwarded : Obligations.ListedCommandsAreForwarded := by
  intro b s tr e h hstage hwaking hb hfind hcls n
  have he : s.lookup b = some e := by
    rw [← hfind, State.lookup, State.tableInForce]
    cases s.control.phase <;> rfl
  have hn : s.resolveLength tr.port e.address = n := s.resolveLength_eq tr.port e.address
  have hforward : s.disposeListed (s.framed tr b e) e b = s.forward (s.framed tr b e) := by
    unfold State.disposeListed
    rcases hcls with hc | hc | hc | hc <;> rw [hc]
  rw [commandByte_of_command h hstage, State.takeCommand_listed hb he hwaking, hforward, State.forward_eq]
  unfold State.framed stageAfterAddress
  rw [hn]
  rfl

/-- Settles O19: a listed BLOCK command, an unlisted one under BLOCK, an unlisted one under PASS. -/
theorem blockedCommandsAreRecorded : Obligations.BlockedCommandsAreRecorded := by
  intro b s tr h hstage hwaking hb hphase
  have hawake : s.control.phase ≠ .halted := by rcases hphase with hp | hp <;> rw [hp] <;> decide
  refine ⟨fun e he hcls => ?_, fun he hrun haction => ?_, fun he hpass => ?_⟩ <;>
    rw [commandByte_of_command h hstage]
  · rw [State.takeCommand_listed hb he hwaking]
    unfold State.disposeListed
    rw [hcls]
    dsimp only
    rw [State.blockCommand_eq hawake]
    rfl
  · have haction' : s.unlistedAction = .block := by rw [State.unlistedAction, if_pos hrun, haction]
    rw [State.takeCommand_unlisted hb he hwaking, haction']
    dsimp only
    rw [State.blockCommand_eq hawake]
    rfl
  · have haction' : s.unlistedAction = .pass := by
      unfold State.unlistedAction
      rcases hpass with hp | hp
      · rw [if_neg (by rw [hp]; decide)]
      · rw [hp]; exact ite_self _
    rw [State.takeCommand_unlisted hb he hwaking, haction']
    rfl

/-- Settles O20: what a WAKING transaction's command byte does, and every byte of a blocked or dropped one. -/
theorem wakingTransactionsAreDropped : Obligations.WakingTransactionsAreDropped := by
  intro b s tr h
  refine ⟨fun hstage hwaking hb => ⟨fun he => ?_, fun e he => ?_⟩, fun hd => ⟨fun hstage => ?_, fun hstage => ?_⟩⟩
  · rw [commandByte_of_command h hstage, State.takeCommand_unlisted_waking hb he hwaking]
    rfl
  · rw [commandByte_of_command h hstage, State.takeCommand_listed_waking hb he hwaking]
    rfl
  · have hdata : tr.stage.carriesData = true := by rcases hstage with hs | hs <;> rw [hs] <;> rfl
    change execReadDataByte b s = _
    rw [execReadDataByte_high h hdata hd.symm]
    rfl
  · change execReadDataByte b s = _
    unfold execReadDataByte
    rw [h]
    dsimp only
    rw [hstage, if_neg (by decide), if_pos hd.symm, State.deliver, h]

/-! ### The address -/

/-- The number of the address bytes, as the statements write it. -/
theorem addressValue_eq (bytes : List Byte) : addressValue bytes = bytes.foldl (fun a x => 256 * a + x.toNat) 0 := by
  unfold addressValue
  simp only [Nat.mul_comm]

theorem addressComplete_of_address {bytes : List Byte} (h : s.transaction = some tr) (hstage : tr.stage = .address)
    (hlength : bytes.length = tr.addressLength) (hbytes : bytes.length = 3 ∨ bytes.length = 4) :
    exec (.addressComplete bytes) s = .next (s.takeAddress tr bytes) := by
  change execAddressComplete bytes s = _
  rw [execAddressComplete, whenWellFormed, if_pos, h]
  · dsimp only
    rw [if_pos ⟨hstage, hlength⟩]
  · rcases hbytes with hb | hb <;> simp [Instr.wellFormed, hb]

namespace State

/-- The size of a port in MiB, from the size code of the manifest in force (R11, R43). -/
theorem portSize_eq (s : State) (p : Port) :
    s.portSize p = (let code := match s.control.manifest, p with
      | none, _ => 0
      | some m, .p0 => m.size0
      | some m, .p1 => m.size1
    if code = 0 then 32 * 2 ^ 20 else 2 ^ (code - 1) * 2 ^ 20) := by
  have hsize : ∀ code : Nat, (if code = 0 then 2 ^ 25 else 2 ^ (19 + code)) =
      if code = 0 then 32 * 2 ^ 20 else 2 ^ (code - 1) * 2 ^ 20 := fun code => by
    split
    next => rfl
    next h => rw [← Nat.pow_add]; congr 1; omega
  exact (hsize _).trans (by cases s.control.manifest <;> cases p <;> rfl)

end State

/-- Settles O21: what `State.takeAddress` records where nothing awaits a judgment. -/
theorem startAddressIsReducedToThePort : Obligations.StartAddressIsReducedToThePort := by
  intro bytes s tr e h hstage hlength hbytes he hd value code size space
  have hsize : s.portSize tr.port = size := s.portSize_eq tr.port
  refine ⟨hsize, ?_⟩
  have hspace : addressSpace tr.addressLength (s.portSize tr.port) = space := by
    rw [addressSpace, ← hlength, hsize]
  rw [addressComplete_of_address h hstage hlength hbytes]
  unfold State.takeAddress
  rw [hspace, addressValue_eq, he]
  cases hdisp : tr.disposition with
  | pending => exact absurd hdisp hd
  | _ => rfl

/-! ### Writes -/

/-- Settles O23: the class of a PROGRAM or ERASE and the length of its address decide when it is judged. -/
theorem writesAreJudgedWhenTheirAddressIsKnown : Obligations.WritesAreJudgedWhenTheirAddressIsKnown := by
  intro b bytes s tr e h hcls
  refine ⟨fun hstage hwaking hb he => ?_, fun hstage hd he hcommand hlength hbytes => ?_⟩
  · have hwrite : s.disposeListed (s.framed tr b e) e b = if (s.framed tr b e).addressLength = 0 then
        s.judgeWrite (s.framed tr b e) e b else s.setTransaction { s.framed tr b e with disposition := .pending } := by
      unfold State.disposeListed
      rcases hcls with hc | hc <;> rw [hc]
    intro n
    rw [commandByte_of_command h hstage, State.takeCommand_listed hb he hwaking, hwrite]
    have hn : (s.framed tr b e).addressLength = n := rfl
    refine ⟨fun h0 => ?_, fun h0 => ?_⟩
    · rw [if_pos (hn.trans h0)]
      unfold State.framed
      rw [show s.resolveLength tr.port e.address = 0 from h0]
      rfl
    · rw [if_neg (hn ▸ h0)]
      unfold State.framed
      rw [if_neg h0]
      rfl
  · rw [addressComplete_of_address h hstage hlength hbytes]
    unfold State.takeAddress
    rw [hd, he, hcommand]
    rfl

namespace State

theorem inDeniedRegion_iff {g : Nat} : s.inDeniedRegion g = true ↔
    ∃ r, s.regionOf g = some r ∧ (r.write = .deny ∨ r.write = .denyTrip) := by
  unfold inDeniedRegion
  cases s.regionOf g <;> simp

theorem inActiveAnchor_iff {g : Nat} : s.inActiveAnchor g = true ↔
    ∃ v, s.control.context = some v ∧ s.fuses.inAnchor v.anchor g = true := by
  unfold inActiveAnchor activeAnchor
  cases s.control.context <;> simp

theorem blocksWrite_iff {phase : Phase} {g : Nat} : s.blocksWrite phase g = true ↔
    s.fuses.inRecoveryWindow g = true ∨ (phase = .run ∧
      ((∃ r, s.regionOf g = some r ∧ (r.write = .deny ∨ r.write = .denyTrip)) ∨
        ∃ v, s.control.context = some v ∧ s.fuses.inAnchor v.anchor g = true)) := by
  unfold blocksWrite
  rw [Bool.or_eq_true, Bool.and_eq_true, Bool.or_eq_true, inDeniedRegion_iff, inActiveAnchor_iff, decide_eq_true_eq]

end State

theorem SegmentRun.mem_list_iff {run : SegmentRun} {g : Nat} : g ∈ run.list ↔ run.holds g = true := by
  unfold SegmentRun.list SegmentRun.holds
  simp only [List.mem_map, List.mem_range, Bool.and_eq_true, decide_eq_true_eq]
  constructor
  · rintro ⟨k, hk, rfl⟩
    omega
  · rintro ⟨hlow, hhigh⟩
    exact ⟨g - run.first, by omega, by omega⟩

/-- The first segment of a run that meets a test is its lowest one that does. -/
theorem SegmentRun.find?_list_of_lowest {run : SegmentRun} {g : Nat} {test : Nat → Bool} (hg : run.holds g = true)
    (htest : test g = true) (hlow : ∀ h, h < g → run.holds h = true → test h = false) :
    run.list.find? test = some g := by
  obtain ⟨hfirst, hlast⟩ := (SegmentRun.holds_iff run g).1 hg
  rw [List.find?_eq_some_iff_getElem]
  refine ⟨htest, g - run.first, by simp [SegmentRun.list]; omega, by simp [SegmentRun.list]; omega, fun j hj => ?_⟩
  simp only [SegmentRun.list, List.getElem_map, List.getElem_range]
  rw [hlow _ (by omega) ((SegmentRun.holds_iff run _).2 ⟨by omega, by omega⟩)]
  rfl

namespace State

theorem lowestBlocking_none {phase : Phase} {run : SegmentRun}
    (h : ∀ g, run.holds g = true → ¬ s.blocksWrite phase g = true) : s.lowestBlocking phase run = none :=
  List.find?_eq_none.2 fun g hg => h g (SegmentRun.mem_list_iff.1 hg)

theorem judgeWrite_of_unblocked {e : ClassEntry} {b : Byte}
    (h : s.lowestBlocking tr.phase (s.affected tr.port e tr.start) = none) : s.judgeWrite tr e b =
      if tr.phase = .run then
        ((s.forward tr).reportWrite (s.affected tr.port e tr.start)).settleGates.judge
      else s.forward tr := by
  unfold judgeWrite
  dsimp only
  rw [h]

theorem judgeWrite_of_blocked {e : ClassEntry} {b : Byte} {g : Nat}
    (h : s.lowestBlocking tr.phase (s.affected tr.port e tr.start) = some g) :
    s.judgeWrite tr e b = s.denyWrite tr b g := by
  unfold judgeWrite
  dsimp only
  rw [h]

/-- What a context holds is discarded where its segment is marked (R88). -/
theorem discardIn_eq_bind (marked : List Nat) (x : Option Context) :
    discardIn marked x = x.bind (fun c => if c.seg ∈ marked then none else some c) := by
  cases x with
  | none => rfl
  | some c => simp [discardIn]

/-- The trips of a denial, gate by gate (R147, R148). -/
theorem tripDenied_raise_eq (s : State) (g : Nat) : (s.tripDenied g).raise .writeDenied =
    let policy := fun (mask : BitVec 16) => match s.regionIndex g, s.regionOf g with
      | some i, some r => decide (r.write = .denyTrip) && mask.getLsbD i
      | _, _ => false
    { s with gates := { s.gates with
        print := { s.gates.print with
          latch := s.gates.print.latch || (s.settings.printSet.getLsbD 3 || policy s.gates.print.mask) }
        scan := { s.gates.scan with
          latch := s.gates.scan.latch || (s.settings.scanSet.getLsbD 3 || policy s.gates.scan.mask) } } } := by
  unfold tripDenied raise tripRegion latchGates holdsTrigger
  cases s.regionIndex g with
  | none => simp [Trigger.bit]
  | some i =>
    cases s.regionOf g with
    | none => simp [Trigger.bit]
    | some r =>
      dsimp only
      split
      next h => simp [Trigger.bit, h, Bool.or_comm, Bool.or_assoc]
      next h => simp [Trigger.bit, h]

end State

/-- Settles O24: no segment of the run blocks, so the write is forwarded and in RUN reported. -/
theorem unblockedWritesAreForwardedAndMark : Obligations.UnblockedWritesAreForwardedAndMark := by
  intro s tr e b run blocks hfree marked gone t
  have hnone : s.lowestBlocking tr.phase run = none :=
    State.lowestBlocking_none fun g hg hb => hfree g hg (State.blocksWrite_iff.1 hb)
  refine ⟨fun hphase => ?_, fun hphase => ?_⟩
  · rw [State.judgeWrite_of_unblocked hnone, if_neg hphase]
    rfl
  · rw [State.judgeWrite_of_unblocked hnone, if_pos hphase]
    have hmarks : (s.forward tr).marks run = marked := by
      funext x
      unfold State.marks State.regionOf
      rw [State.forward_eq]
      simp only [State.setPort_regions]
      rfl
    have hgone : (s.forward tr).markedSegments run = gone := by
      unfold State.markedSegments
      rw [hmarks, State.forward_eq]
      simp only [State.setPort_segments]
      rfl
    congr 2
    unfold State.reportWrite
    rw [hmarks, hgone]
    simp only [State.forward_eq, State.setPort_segments, State.setPort_pool]
    have hslots : ∀ l : List (Option Context), l.map (discardIn gone) =
        l.map (fun c => c.bind (fun x => if x.seg ∈ gone then none else some x)) := fun l =>
      List.map_congr_left fun x _ => State.discardIn_eq_bind gone x
    have hgaps : s.pool.gaps.filter (fun g => !gone.contains g) = s.pool.gaps.filter (fun x => decide (x ∉ gone)) := by
      simp
    rw [hslots, hgaps]

/-- Settles O25: the lowest blocking segment is the one named. -/
theorem blockedWritesAreDenied : Obligations.BlockedWritesAreDenied := by
  intro s tr e b g hawake run blocks hg hblocks hlow trips
  have hsome : s.lowestBlocking tr.phase run = some g :=
    SegmentRun.find?_list_of_lowest hg (State.blocksWrite_iff.2 hblocks) fun h hlt hh =>
      Bool.eq_false_iff.2 fun hb => hlow h hlt hh (State.blocksWrite_iff.1 hb)
  rw [State.judgeWrite_of_blocked hsome]
  unfold State.denyWrite
  dsimp only
  rw [State.pushFault_of_not_halted (by exact hawake), State.tripDenied_raise_eq]
  rfl

/-! ### The lanes -/

/-- Settles O60, by the disposition of the open transaction. -/
theorem lanesFollowTheTransaction : Obligations.LanesFollowTheTransaction := by
  intro s tr frame i
  refine ⟨fun h => ?_, fun h hd => State.relay_of_not_forward h hd, fun e h hd he => ?_, fun h hd he => ?_,
    fun h hc => ?_, fun b h hc => ⟨fun hd => ?_, fun hd => ?_, fun hd => ?_, fun hd hframe => ?_, fun hd hframe => ?_⟩,
    rfl, rfl, rfl, rfl, fun x hx => ?_, fun hlength => ?_⟩
  · rw [State.drive, State.relay, h]
    exact ⟨rfl, rfl⟩
  · rw [State.relay_of_forward h hd, he]
    rfl
  · rw [State.relay_of_forward h hd, he]
    rfl
  · simp [State.drive, h, hc]
  · simp [State.drive, h, hc, hd]
  · simp [State.drive, h, hc, hd]
  · rcases hd with hd | hd <;> simp [State.drive, h, hc, hd]
  · simp [State.drive, h, hc, hd, hframe]
  · unfold State.drive
    rw [h]
    dsimp only
    rw [hc, hd]
    cases hchannel : tr.channel with
    | frame bytes => exact absurd hchannel (hframe bytes)
    | _ => rfl
  · have hplace : ¬ i + 2 < 2 := by omega
    simp [Drive.escapeByte, hx, hplace]
  · simp [Drive.escapeByte, hlength]

end Sys2Proof.Machine
end

section
/-!
The request channel (chapter 10): judging a request, and the requests that read the part or write its settings.
-/
namespace Sys2Proof.Machine
variable {s : State} {tr : Transaction}

/-! ### Numbers as bytes (R192) -/

theorem leBytes_one (v : Nat) : leBytes 1 v = [BitVec.ofNat 8 v] := rfl

theorem leBytes_two (v : Nat) : leBytes 2 v = [BitVec.ofNat 8 v, BitVec.ofNat 8 (v / 256)] := rfl

theorem leBytes_four (v : Nat) : leBytes 4 v =
    [BitVec.ofNat 8 v, BitVec.ofNat 8 (v / 256), BitVec.ofNat 8 (v / 65536), BitVec.ofNat 8 (v / 16777216)] := by
  simp [leBytes, Nat.div_div_eq_div_mul]

/-! ### The channel -/

namespace State

theorem channel_of_request (h : s.transaction = some tr) (hd : tr.disposition = .request) :
    s.channel = some tr.channel := by
  unfold channel
  rw [h]
  exact if_pos hd

theorem setChannel_of_transaction (h : s.transaction = some tr) (c : Channel) :
    s.setChannel c = { s with transaction := some { tr with channel := c } } := by
  unfold setChannel
  rw [h]
  rfl

theorem reply_done (s : State) (tag code : Byte) (st : Status) (data : List Byte) :
    (s.setChannel .done).reply tag code st data = s.answered tag code st data := rfl

end State

/-- Settles O41: the frame of each state of the buffer. -/
theorem fetchCopiesTheBuffer : Obligations.FetchCopiesTheBuffer := by
  intro s tr h hd hchannel driven
  have hfetch : exec .fetch s = .next (s.setChannel (.frame s.buffer.frame)) := by
    change execFetch s = _
    rw [execFetch, State.channel_of_request h hd, hchannel]
  have hdriven : ∀ bytes, s.buffer.frame = bytes → driven bytes := fun bytes hb => by
    change exec .fetch s = _
    rw [hfetch, State.setChannel_of_transaction h, hb]
  refine ⟨fun hst => hdriven _ ?_, fun hst => hdriven _ ?_, fun st hst hstatus => hdriven _ ?_⟩
  · rw [Buffer.frame, hst]
    rfl
  · rw [Buffer.frame, hst]
    rfl
  · rw [Buffer.frame, hst, hstatus]
    rfl

/-! ### The length byte -/

/-- The parameter length of a known code (R174). -/
def expectedLength (code : Byte) : Nat :=
  if code = 2 then 3 else if code = 3 ∨ code = 5 ∨ code = 6 then 1 else if code = 7 then 8 else if code = 9 then 2
  else 0

theorem parameterLength_eq : ∀ n, n < 13 → 0 < n →
    parameterLength (BitVec.ofNat 8 n) = some (expectedLength (BitVec.ofNat 8 n)) := by decide

theorem parameterLength_of_known {code : Byte} (h : 0 < code.toNat ∧ code.toNat ≤ 12) :
    parameterLength code = some (expectedLength code) := by
  have hcode := parameterLength_eq code.toNat (Nat.lt_succ_of_le h.2) h.1
  rwa [BitVec.ofNat_toNat, BitVec.setWidth_eq] at hcode

theorem parameterLength_of_unknown {code : Byte} (h : 12 < code.toNat) : parameterLength code = none := by
  cases hp : parameterLength code with
  | none => rfl
  | some n =>
    have hsome := (parameterLength_isSome_iff code).1 (by simp [hp])
    omega

namespace State

theorem judgeRequest_of_working (h : s.buffer.state = .working) (code : Byte) (n : Nat) :
    s.judgeRequest code n = .discard := if_pos h

theorem judgeRequest_of_unknown (h : s.buffer.state ≠ .working) {code : Byte} (hcode : 12 < code.toNat) (n : Nat) :
    s.judgeRequest code n = .refuse .badRequest := by
  unfold judgeRequest
  rw [if_neg h, parameterLength_of_unknown hcode]

theorem judgeRequest_of_known (h : s.buffer.state ≠ .working) {code : Byte}
    (hcode : 0 < code.toNat ∧ code.toNat ≤ 12) (n : Nat) : s.judgeRequest code n =
      if accepts s.control.phase s.requestPower code = true then
        if n = expectedLength code then .accept else .refuse .badLength
      else .refuse .notAllowed := by
  unfold judgeRequest
  rw [if_neg h, parameterLength_of_known hcode]
  dsimp only
  cases accepts s.control.phase s.requestPower code <;> simp

theorem lengthByte_of_discard (hc : s.channel = some .awaiting) {code tag : Byte} {n : Nat}
    (hj : s.judgeRequest code n = .discard) : s.lengthByte code tag n = s.setChannel .done := by
  unfold lengthByte
  rw [hc]
  dsimp only
  rw [hj]

theorem lengthByte_of_refuse (hc : s.channel = some .awaiting) {code tag : Byte} {n : Nat} {st : Status}
    (hj : s.judgeRequest code n = .refuse st) : s.lengthByte code tag n = s.answered tag code st [] := by
  unfold lengthByte
  rw [hc]
  dsimp only
  rw [hj]
  rfl

theorem lengthByte_of_accept (hc : s.channel = some .awaiting) {code tag : Byte} {n : Nat}
    (hj : s.judgeRequest code n = .accept) : s.lengthByte code tag n =
      if code = codeStatus then (s.setChannel .done).takeStatus tag
      else if code = codeFaultAck then (s.setChannel .done).takeFaultAck tag
      else if code = codeLock then (s.setChannel .done).takeLock tag
      else if code = codeTime then (s.setChannel .done).takeTime tag
      else if code = codeDoze then (s.setChannel .done).takeDoze tag
      else if code = codeAdvance then (s.setChannel .done).takeAdvance tag
      else s.setChannel (.parameters code tag) := by
  unfold lengthByte
  rw [hc]
  dsimp only
  rw [hj]

end State

theorem requestLengthByte_of_known {code : Byte} (h : 0 < code.toNat ∧ code.toNat ≤ 12) (tag length : Byte)
    (s : State) : exec (.requestLengthByte code tag length) s = .next (s.lengthByte code tag length.toNat) := by
  change execRequestLengthByte code tag length s = _
  rw [execRequestLengthByte, whenWellFormed, if_pos (by simpa [Instr.wellFormed] using h)]

theorem unknownRequest_of_unknown {code : Byte} (h : 12 < code.toNat) (tag : Byte) (s : State) :
    exec (.unknownRequest tag code) s = .next (s.lengthByte code tag 0) := by
  change execUnknownRequest tag code s = _
  rw [execUnknownRequest, whenWellFormed, if_pos (by simpa [Instr.wellFormed] using h)]

/-- Settles O42: R174's steps in their order, and what an accepted request goes on to. -/
theorem lengthByteIsJudgedInOrder : Obligations.LengthByteIsJudgedInOrder := by
  intro code tag length s tr h hd hchannel expected known accepted answered
  have hexpected : expected = expectedLength code := rfl
  have hc : s.channel = some .awaiting := (State.channel_of_request h hd).trans (congrArg some hchannel)
  have hdone : ∀ c, s.setChannel c = { s with transaction := some { tr with channel := c } } :=
    State.setChannel_of_transaction h
  have hpower : accepts s.control.phase s.requestPower code = true ↔ accepted := by
    rw [State.requestPower_of_some h]
  refine ⟨fun hw hk => ?_, fun hw hk => ?_, fun hw hk => ?_, fun hw hk => ⟨fun hno => ?_, fun hyes hlength => ?_,
    fun hyes hlength hsome => ?_, fun hyes hzero => ?_⟩⟩
  · rw [requestLengthByte_of_known hk, State.lengthByte_of_discard hc (State.judgeRequest_of_working hw ..), hdone]
  · rw [unknownRequest_of_unknown hk, State.lengthByte_of_discard hc (State.judgeRequest_of_working hw ..), hdone]
  · rw [unknownRequest_of_unknown hk, State.lengthByte_of_refuse hc (State.judgeRequest_of_unknown hw hk 0)]
  · change exec _ s = _
    rw [requestLengthByte_of_known hk, State.lengthByte_of_refuse hc (st := .notAllowed)]
    rw [State.judgeRequest_of_known hw hk, if_neg (fun ha => hno (hpower.1 ha))]
  · change exec _ s = _
    rw [requestLengthByte_of_known hk, State.lengthByte_of_refuse hc (st := .badLength)]
    rw [State.judgeRequest_of_known hw hk, if_pos (hpower.2 hyes), if_neg (hexpected ▸ hlength)]
  · have hcodes : ∀ c : Byte, expectedLength c = 0 → code ≠ c := fun c h0 heq =>
      hsome (hexpected.trans (heq ▸ h0))
    rw [requestLengthByte_of_known hk, State.lengthByte_of_accept hc, if_neg (hcodes _ rfl), if_neg (hcodes _ rfl),
      if_neg (hcodes _ rfl), if_neg (hcodes _ rfl), if_neg (hcodes _ rfl), if_neg (hcodes _ rfl), hdone]
    rw [State.judgeRequest_of_known hw hk, if_pos (hpower.2 hyes), if_pos (hlength.trans hexpected)]
  · have hawaits : s.awaits code tag := .inr ⟨hc, hw, hpower.2 hyes⟩
    have htaken : ∀ f : State → State, parameterLength code = some 0 → (if code = codeStatus then
          (s.setChannel .done).takeStatus tag
        else if code = codeFaultAck then (s.setChannel .done).takeFaultAck tag
        else if code = codeLock then (s.setChannel .done).takeLock tag
        else if code = codeTime then (s.setChannel .done).takeTime tag
        else if code = codeDoze then (s.setChannel .done).takeDoze tag
        else if code = codeAdvance then (s.setChannel .done).takeAdvance tag
        else s.setChannel (.parameters code tag)) = f (s.setChannel .done) →
        exec (.requestLengthByte code tag length) s = .next (s.request code tag 0 f) := fun f h0 hf => by
      rw [State.request_of_awaits hawaits h0, requestLengthByte_of_known hk, State.lengthByte_of_accept hc, hf]
      rw [State.judgeRequest_of_known hw hk, if_pos (hpower.2 hyes), if_pos]
      rw [parameterLength_of_known hk, Option.some.injEq] at h0
      rw [hzero, h0]
      rfl
    refine ⟨?_, ?_, ?_, ?_, ?_, ?_⟩ <;> rintro rfl <;> exact htaken _ rfl rfl

end Sys2Proof.Machine
end

section
/-!
The requests that read the part: STATUS, VERDICTS, FAULT_READ; FAULT_ACK and ADVANCE (chapter 10, 2.6).
-/
namespace Sys2Proof.Machine
variable {s : State}

/-! ### STATUS -/

namespace State

theorem stateCount_eq (s : State) (st : SegState) :
    s.stateCount st = (s.segments.filter (fun e => decide (e.state = st))).length := by
  rw [stateCount, List.countP_eq_length_filter]
  rfl

theorem activeAnchorCode_eq (s : State) : activeAnchorCode s.activeAnchor = match s.control.context with
    | some c => (match c.anchor with | .primary => 1 | .fallback => 2)
    | none => 0 := by
  unfold activeAnchor
  cases s.control.context with
  | none => rfl
  | some c =>
    dsimp only [Option.map]
    cases c.anchor <;> rfl

end State

theorem Pool.liveCount_eq (p : Pool) : p.liveCount = (p.slots.filter (fun c => c.isSome)).length :=
  List.countP_eq_length_filter

/-- Settles O44, field by field. -/
theorem statusReportsThePart : Obligations.StatusReportsThePart := by
  intro tag s h u8 u16 bit sequence anchor count live
  have htaken : exec (.status tag) s = .next (s.answered tag 1 .ok s.statusData) :=
    congrArg Host.Outcome.next (State.request_of_awaits h rfl _)
  rw [htaken]
  unfold State.statusData
  simp only [leBytes_one, leBytes_two, leBytes_four, State.stateCount_eq, State.activeAnchorCode_eq, Pool.liveCount_eq]
  rfl

/-! ### Fault records -/

/-- A record's 16 bytes, one by one (12.3). -/
theorem FaultRecord.bytes_eq (r : FaultRecord) : r.bytes =
    [BitVec.ofNat 8 r.kind.code, BitVec.ofNat 8 r.phase.code, r.detail,
      BitVec.ofNat 8 (flagBit 0 r.region.isSome + flagBit 1 r.segment.isSome + flagBit 2 r.address.isSome)] ++
    leBytes 4 r.timestamp.toNat ++
    [BitVec.ofNat 8 (r.region.getD 0), 0, BitVec.ofNat 8 (r.segment.getD 0), BitVec.ofNat 8 (r.segment.getD 0 / 256)] ++
    leBytes 4 (r.address.getD 0) := by
  simp [FaultRecord.bytes, leBytes_one, leBytes_two]

/-- Settles O46: a record at its depth, and the removal of the newest. -/
theorem faultRecordsAreReadAndAcknowledged : Obligations.FaultRecordsAreReadAndAcknowledged := by
  intro tag depth s u8 u32 bit bytes
  have hbytes : ∀ r : FaultRecord, r.bytes = bytes r := fun r => by
    rw [FaultRecord.bytes_eq, leBytes_four, leBytes_four]
    rfl
  refine ⟨fun h => ?_, fun h => ?_⟩
  · have htaken : exec (.faultRead tag depth) s = .next ((s.setChannel .done).takeFaultRead tag depth) :=
      congrArg Host.Outcome.next (State.request_of_awaits h rfl _)
    rw [htaken]
    unfold State.takeFaultRead
    refine ⟨fun r hr => ?_, fun hdeep => ?_⟩
    · rw [show (s.setChannel .done).faults[depth.toNat]? = some r from hr, ← hbytes]
      rfl
    · rw [show (s.setChannel .done).faults[depth.toNat]? = none from List.getElem?_eq_none hdeep]
      rfl
  · have htaken : exec (.faultAck tag) s = .next ((s.setChannel .done).takeFaultAck tag) :=
      congrArg Host.Outcome.next (State.request_of_awaits h rfl _)
    rw [htaken]
    unfold State.takeFaultAck
    refine ⟨fun hempty => ?_, fun r rest hr => ?_⟩
    · rw [show (s.setChannel .done).faults = [] from hempty]
      rfl
    · rw [show (s.setChannel .done).faults = r :: rest from hr, ← hbytes]
      dsimp only
      cases hmode : s.settings.alertMode with
      | level =>
        have hdepth : decide (0 < rest.length) = decide (rest ≠ []) := by simp [List.length_pos_iff]
        rw [State.setChannel_settings, hmode, Alert.acknowledge, hdepth]
        rfl
      | pulse =>
        rw [State.setChannel_settings, hmode]
        rfl

/-! ### ADVANCE -/

theorem map_filter_eq_flatMap {α β : Type} (f : α → β) (keep : α → Bool) (l : List α) :
    (l.filter keep).map f = l.flatMap (fun x => if keep x then [f x] else []) := by
  induction l with
  | nil => rfl
  | cons x l ih => cases h : keep x <;> simp [h, ih]

namespace State

theorem advanceReady_iff : s.advanceReady = true ↔
    s.control.bootConfirmed = true ∧ ∀ e ∈ s.segments, e.state ≠ .failed := by
  simp [advanceReady]

/-- The bits to program, class by class and then flag by flag (R36). -/
theorem advancePlan_eq {m : ActiveManifest} (hm : s.control.manifest = some m) : s.advancePlan =
    (List.range 8).flatMap (fun c => List.replicate (s.control.differences.getD c 0).toNat (FuseTarget.row c)) ++
      (List.range 4).flatMap (fun i => if m.revoke.getLsbD i && !s.fuses.revoked.getLsbD i
        then [FuseTarget.flag i] else []) := by
  unfold advancePlan
  rw [hm]
  dsimp only
  rw [map_filter_eq_flatMap]

end State

/-- Settles O50: the preconditions, then the plan. -/
theorem advancePlansItsBits : Obligations.AdvancePlansItsBits := by
  intro tag s m h hm ready row flag plan
  have htaken : exec (.advance tag) s = .next ((s.setChannel .done).takeAdvance tag) :=
    congrArg Host.Outcome.next (State.request_of_awaits h rfl _)
  have hready : (s.setChannel .done).advanceReady = true ↔ ready := State.advanceReady_iff
  have hplan : (s.setChannel .done).advancePlan = plan := by
    change s.advancePlan = plan
    rw [State.advancePlan_eq hm]
    simp [List.range_succ, plan, row, flag]
  rw [htaken]
  unfold State.takeAdvance
  rw [hplan]
  refine ⟨fun hno => ?_, fun hyes hsome => ?_, fun hyes hnone => ?_⟩
  · rw [if_neg (mt hready.1 hno)]
    rfl
  · rw [if_pos (hready.2 hyes)]
    dsimp only
    rw [if_neg (by simpa using hsome)]
    rfl
  · rw [if_pos (hready.2 hyes)]
    dsimp only
    rw [if_pos (by simp [hnone]), State.endAdvance_of_manifest (by exact hm)]
    rfl

end Sys2Proof.Machine
end

section
/-!
The verdict report (R178) and the summaries of the regions (5.7).
-/
namespace Sys2Proof.Machine
variable {s : State}

theorem filterMap_guard {α β : Type} (keep : α → Bool) (f : α → β) (l : List α) :
    l.filterMap (fun x => if keep x then some (f x) else none) = (l.filter keep).map f := by
  induction l with
  | nil => rfl
  | cons x l ih => cases h : keep x <;> simp [h, ih]

namespace State

/-- A requested index that the map holds (R178). -/
def present (s : State) (mask : BitVec 16) (i : Nat) : Bool := mask.getLsbD i && decide (i < s.regions.length)

/-- The record of an index in a STANDARD report (R178). -/
def standardRecord (s : State) (mask : BitVec 16) (i : Nat) : List Byte :=
  match s.presentRegion mask i with
  | some r => s.verdictRecord i r
  | none => absentRecord i

theorem presentRegion_isSome (s : State) (mask : BitVec 16) (i : Nat) :
    (s.presentRegion mask i).isSome = s.present mask i := by
  unfold presentRegion present
  split
  next h => by_cases hi : i < s.regions.length <;> simp [h, hi]
  next h => simp [h]

theorem presentMask_getLsbD (s : State) (mask : BitVec 16) {i : Nat} (hi : i < 16) :
    (s.presentMask mask).getLsbD i = s.present mask i := by
  unfold presentMask present
  rw [BitVec.getLsbD_and, BitVec.getLsbD_ofNat, Nat.testBit_two_pow_sub_one]
  simp [hi]

theorem presentMask_eq {mask m : BitVec 16} (h : ∀ i, i < 16 → m.getLsbD i = s.present mask i) :
    s.presentMask mask = m :=
  BitVec.eq_of_getLsbD_eq fun i hi => (s.presentMask_getLsbD mask hi).trans (h i hi).symm

theorem filterMap_range_congr {α : Type} {f g : Nat → Option α} {n : Nat} (h : ∀ i, f i = g i) :
    (List.range n).filterMap f = (List.range n).filterMap g := by
  rw [funext h]

theorem verdictRecords_standard (s : State) (mask : BitVec 16) :
    s.verdictRecords mask false = (List.range 16).map (s.standardRecord mask) := by
  unfold verdictRecords
  refine (filterMap_range_congr (g := fun i => some (s.standardRecord mask i)) fun i => ?_).trans
    (congrFun List.filterMap_eq_map' _)
  unfold standardRecord
  cases s.presentRegion mask i <;> rfl

theorem verdictRecords_compact (s : State) (mask : BitVec 16) :
    s.verdictRecords mask true = ((List.range 16).filter (s.present mask)).map (s.standardRecord mask) := by
  unfold verdictRecords
  refine (filterMap_range_congr fun i => ?_).trans (filterMap_guard (s.present mask) (s.standardRecord mask) _)
  rw [← presentRegion_isSome]
  unfold standardRecord
  cases s.presentRegion mask i <;> rfl

/-! ### Summaries (R92, R94) -/

theorem someIn_iff {r : Region} {st : SegState} :
    s.someIn r st = true ↔ ∃ k, k < r.count ∧ s.segState (r.segmentAt k) = some st := by
  simp only [someIn, List.any_eq_true, List.mem_range, decide_eq_true_eq]
  exact Iff.rfl

theorem allVerified_iff {r : Region} :
    s.allVerified r = true ↔ ∀ k, k < r.count → s.segState (r.segmentAt k) = some .verified := by
  simp only [allVerified, List.all_eq_true, List.mem_range, decide_eq_true_eq]
  exact Iff.rfl

theorem firstFailed_of_lowest {r : Region} {k : Nat} (hk : k < r.count)
    (hst : s.segState (r.segmentAt k) = some .failed)
    (hlow : ∀ j, j < k → s.segState (r.segmentAt j) ≠ some .failed) : s.firstFailed r = k := by
  have hfind : (List.range r.count).find? (fun k => decide (s.stateAt r k = some .failed)) = some k :=
    List.find?_range_eq_some.2 ⟨decide_eq_true hst, List.mem_range.2 hk, fun j hj => by
      rw [show decide (s.stateAt r j = some .failed) = false from decide_eq_false (hlow j hj)]
      rfl⟩
  unfold firstFailed
  rw [hfind]

theorem firstFailed_of_none {r : Region} (h : ¬ s.someIn r .failed = true) : s.firstFailed r = 0xFFFF := by
  have hfind : (List.range r.count).find? (fun k => decide (s.stateAt r k = some .failed)) = none :=
    List.find?_eq_none.2 fun k hk hst => h (List.any_eq_true.2 ⟨k, hk, hst⟩)
  unfold firstFailed
  rw [hfind]

end State

/-- Settles O45: the report in each format, then the summary of a region line by line. -/
theorem verdictsReportTheRegions : Obligations.VerdictsReportTheRegions := by
  intro tag mask0 mask1 format s h u8 bit present record
  have htaken : exec (.verdicts tag mask0 mask1 format) s =
      .next ((s.setChannel .done).takeVerdicts tag mask0 mask1 format) :=
    congrArg Host.Outcome.next (State.request_of_awaits h rfl _)
  have hrecord : ∀ i, s.standardRecord (flags16 mask0 mask1) i = record i := fun i => by
    unfold State.standardRecord State.presentRegion
    dsimp only [record, present]
    by_cases hmask : (mask1 ++ mask0).getLsbD i = true
    · rw [if_pos (by exact hmask)]
      cases hr : s.regions[i]? with
      | none => rfl
      | some r =>
        dsimp only
        rw [if_pos (by simpa [hmask] using (List.getElem?_eq_some_iff.1 hr).1)]
        rfl
    · rw [if_neg (by exact hmask)]
      cases s.regions[i]? with
      | none => rfl
      | some r =>
        dsimp only
        rw [if_neg (by simp [hmask])]
        rfl
  have hreport : ∀ compact (m : BitVec 16), (∀ i, i < 16 → m.getLsbD i = present i) →
      s.verdictData (flags16 mask0 mask1) compact = leBytes 1 (if compact then 1 else 0) ++ leBytes 2 m.toNat ++
        leBytes 1 (s.verdictRecords (flags16 mask0 mask1) compact).length ++
        (s.verdictRecords (flags16 mask0 mask1) compact).flatten := fun compact m hm => by
    rw [State.verdictData, State.presentMask_eq (mask := flags16 mask0 mask1) hm]
  refine ⟨fun h0 h1 => ?_, fun m hm => ⟨fun h0 => ?_, fun h1 => ?_⟩, fun r hr => ?_⟩
  · rw [htaken]
    unfold State.takeVerdicts
    rw [if_neg h0, if_neg h1]
    rfl
  · have hdata := hreport false m hm
    rw [State.verdictRecords_standard, ← List.flatMap_def, funext hrecord] at hdata
    rw [htaken]
    unfold State.takeVerdicts
    rw [if_pos h0, State.reply_done, show (s.setChannel .done).verdictData (flags16 mask0 mask1) false = _ from hdata,
      leBytes_two, h0]
    rfl
  · have hdata := hreport true m hm
    rw [State.verdictRecords_compact, ← List.flatMap_def, funext hrecord, List.length_map] at hdata
    rw [htaken]
    unfold State.takeVerdicts
    rw [if_neg (by rw [h1]; decide), if_pos h1, State.reply_done,
      show (s.setChannel .done).verdictData (flags16 mask0 mask1) true = _ from hdata, leBytes_two, h1]
    rfl
  · intro at' some' every
    have hsome : ∀ st, some' st ↔ s.someIn r st = true := fun _ => State.someIn_iff.symm
    have hevery : every ↔ s.allVerified r = true := State.allVerified_iff.symm
    simp only [hsome, hevery]
    unfold State.regionSummary
    refine ⟨fun hf => ?_, fun hf hd => ?_, fun hf hd hv => ?_, fun hf hd hv hp => ?_, fun hf hd hv hh hw => ?_, ?_,
      fun k hk hst hlow => State.firstFailed_of_lowest hk hst hlow, fun hf => State.firstFailed_of_none hf⟩
    · rw [if_pos hf]
    · rw [if_neg hf, if_pos hd]
    · rw [if_neg hf, if_neg hd, if_pos hv]
    · rw [if_neg hf, if_neg hd, if_neg hv, if_pos (by simpa using hp)]
    · rw [if_neg hf, if_neg hd, if_neg hv, if_neg (by simp [hh, hw])]
    · exact List.countP_eq_length_filter

end Sys2Proof.Machine
end

section
/-!
Read bytes and their proofs (O26, O28), and the end of a transaction (O30).
-/
namespace Sys2Proof.Machine
variable {s : State} {tr : Transaction}

/-! ### A data byte -/

namespace State

theorem blanked_iff {g : Nat} : s.blanked g = true ↔
    s.segState g = some .failed ∧ ∃ r, s.regionOf g = some r ∧ r.read = .blank := by
  unfold blanked
  cases s.regionOf g <;> simp [and_comm]

/-- A byte of a READ with an address, delivered and reported (R20, R90). -/
theorem deliverRead_eq {b d : Byte} (hlength : tr.addressLength ≠ 0)
    (hd : (if decide (tr.phase = .run) && s.blanked (flatAddress tr.port tr.current / segmentBytes) then 0xFF else b) =
      d) :
    s.deliverRead tr b =
      let u : State := { s with
        delivered := some d
        transaction := some { tr with
          stage := .data, current := nextAddress tr.addressLength (s.portSize tr.port) tr.current } }
      if s.control.phase = .run ∧ s.power.state = .active then
        (u.reportByte (flatAddress tr.port tr.current) b).settleGates.judge
      else u := by
  unfold deliverRead
  dsimp only
  rw [hd, countByte_eq, if_neg hlength]
  rfl

end State

/-- Settles O26: a READ with an address is reported, any other byte relayed and counted alone. -/
theorem readByteIsDeliveredAndReported : Obligations.ReadByteIsDeliveredAndReported := by
  intro b d s tr h hforward hstage flat space blank
  have hdata : tr.stage.carriesData = true := by rcases hstage with hs | hs <;> rw [hs] <;> rfl
  refine ⟨?_, fun hother => ?_⟩
  · intro e he hcls hlength hblank hplain u
    have hread : tr.addressedRead = true := by
      simp [Transaction.addressedRead, Transaction.cls, he, hcls, hlength]
    have hcond : (decide (tr.phase = .run) && s.blanked (flat / segmentBytes)) = true ↔ blank := by
      rw [Bool.and_eq_true, decide_eq_true_eq, State.blanked_iff]
      exact Iff.rfl
    have hd : (if decide (tr.phase = .run) && s.blanked (flat / segmentBytes) then 0xFF else b) = d := by
      by_cases hb : blank
      · rw [if_pos (hcond.2 hb), hblank hb]
      · rw [if_neg (mt hcond.1 hb), hplain hb]
    have hexec : exec (.readDataByte b) s = .next (s.deliverRead (tr.relay b) b) :=
      execReadDataByte_read h hdata hforward hread b
    rw [hexec, State.deliverRead_eq (tr := tr.relay b) hlength hd]
    refine ⟨fun hrun hactive => ?_, fun hquiet => ?_⟩
    · dsimp only
      rw [if_pos ⟨hrun, hactive⟩]
      rfl
    · dsimp only
      rw [if_neg (by rintro ⟨hrun, hactive⟩; exact hquiet.elim (fun hn => hn hrun) (fun hn => hn hactive))]
      rfl
  · have hread : tr.addressedRead = false := by
      rcases hother with he | ⟨e, he, hcls | hlength⟩
      · simp [Transaction.addressedRead, Transaction.cls, he]
      · simp [Transaction.addressedRead, Transaction.cls, he, hcls]
      · simp [Transaction.addressedRead, hlength]
    exact execReadDataByte_relayed h hdata hforward hread b

/-! ### A context's last byte -/

namespace State

/-- A context with one more byte (R100). -/
def fed (s : State) (c : Context) (b : Byte) : Context :=
  { c with fill := c.fill + 1, lastAdvance := s.time, digest := c.digest.push b }

theorem extend_of_last {i : Nat} {c : Context} {e : SegEntry} (hc : s.pool.context i = some c)
    (hlast : c.fill + 1 = segmentBytes) (he : s.entry c.seg = some e) (b : Byte) (stream : Stream) :
    s.extend i b stream =
      if Config.segParity e.digest e.region = e.parity then
        s.writeVerdict i (s.fed c b) e stream
      else s.enterHalted := by
  unfold extend
  rw [hc]
  dsimp only
  rw [if_pos hlast]
  unfold finalise
  dsimp only
  rw [he]
  rfl

theorem writeVerdict_of_equal {i : Nat} {c : Context} {e : SegEntry} (h : c.digest.final = e.digest)
    (stream : Stream) : s.writeVerdict i c e stream =
      ((s.setSegState c.seg .verified).setSlot i none).purgeGap c.seg := by
  unfold writeVerdict
  rw [decide_eq_true h]
  rfl

theorem writeVerdict_of_unequal {i : Nat} {c : Context} {e : SegEntry} (h : c.digest.final ≠ e.digest)
    (stream : Stream) : s.writeVerdict i c e stream =
      ((((s.setSegState c.seg .failed).setSlot i none).purgeGap c.seg).pushFault c.role.mismatch (some e.region)
        (some c.seg) (some (c.seg * segmentBytes)) stream.code).tripRegion e.region := by
  unfold writeVerdict
  rw [decide_eq_false h]
  rfl

end State

/-- Settles O28: the byte that completes a segment compares its digest, under a good parity. -/
theorem lastByteDecidesTheSegment : Obligations.LastByteDecidesTheSegment := by
  intro s i b stream c hc
  refine ⟨fun hshort => State.extend_of_short hc hshort b stream, ?_⟩
  intro e hlast he written
  rw [State.extend_of_last hc hlast he]
  refine ⟨fun hparity hequal => ?_, fun hparity hunequal hawake => ?_, fun hparity => ?_⟩
  · rw [if_pos hparity, State.writeVerdict_of_equal (c := s.fed c b) hequal]
    rfl
  · rw [if_pos hparity, State.writeVerdict_of_unequal (c := s.fed c b) hunequal,
      State.pushFault_of_not_halted (by exact hawake)]
    have hkind : (s.fed c b).role.mismatch = match c.role with
        | .verify => .segMismatch
        | .patrol => .patrolMismatch := by
      change c.role.mismatch = _
      cases c.role <;> rfl
    have hdetail : stream.code = match stream with
        | .passThrough => 0
        | .fetch => 1 := by
      cases stream <;> rfl
    rw [hkind, hdetail]
    rfl
  · rw [if_neg hparity]
    obtain ⟨f, n, h⟩ := s.enterHalted_frame
    exact ⟨_, rfl, by rw [h]; exact ⟨rfl, rfl, rfl, rfl, rfl, rfl, rfl, rfl, rfl, rfl, rfl⟩⟩

end Sys2Proof.Machine
end

section
/-!
The end of a transaction (R1, R10, R14, R111, R176) and the ends of the engine's waits (R21, R130).
-/
namespace Sys2Proof.Machine
variable {s : State} {tr : Transaction}

namespace State

/-! ### UPSTREAM_CS_DEASSERT -/

theorem endTransaction_of_other {p : Port}
    (h : s.transaction = none ∨ ∃ t, s.transaction = some t ∧ t.port ≠ p) : s.endTransaction p = s := by
  unfold endTransaction
  rcases h with h | ⟨t, h, hp⟩
  · rw [h]
  · rw [h]
    exact if_neg hp

theorem endTransaction_of_port {p : Port} (h : s.transaction = some tr) (hport : tr.port = p) :
    s.endTransaction p =
    let u : State := { s with transaction := none }
    match tr.disposition with
    | .forward => u.endForward tr
    | .request =>
      match tr.channel with
      | .parameters code tag => u.reply tag code .badLength []
      | .awaiting | .frame _ | .done => u
    | .pending | .block | .drop => u := by
  unfold endTransaction
  rw [h]
  exact if_pos hport

/-- A transaction that was neither forwarded nor short of parameters ends with nothing more (R1, R14). -/
theorem endTransaction_quiet {p : Port} (h : s.transaction = some tr) (hport : tr.port = p)
    (hd : tr.disposition = .pending ∨ tr.disposition = .block ∨ tr.disposition = .drop ∨
      (tr.disposition = .request ∧ ∀ code tag, tr.channel ≠ .parameters code tag)) :
    s.endTransaction p = { s with transaction := none } := by
  rw [endTransaction_of_port h hport]
  dsimp only
  rcases hd with hd | hd | hd | ⟨hd, hchannel⟩ <;> rw [hd]
  cases hc : tr.channel with
  | parameters code tag => exact absurd hc (hchannel code tag)
  | _ => rfl

theorem endTransaction_short {p : Port} (h : s.transaction = some tr) (hport : tr.port = p)
    (hd : tr.disposition = .request) {code tag : Byte} (hc : tr.channel = .parameters code tag) :
    s.endTransaction p = State.reply { s with transaction := none } tag code .badLength [] := by
  rw [endTransaction_of_port h hport]
  dsimp only
  rw [hd, hc]

theorem endTransaction_forward {p : Port} (h : s.transaction = some tr) (hport : tr.port = p)
    (hd : tr.disposition = .forward) : s.endTransaction p = State.endForward { s with transaction := none } tr := by
  rw [endTransaction_of_port h hport]
  dsimp only
  rw [hd]

theorem endForward_mode (s : State) {e : ClassEntry} (he : tr.entry = some e) (hcls : e.cls = .mode4 ∨ e.cls = .mode3) :
    s.endForward tr = s.setPort tr.port { s.port tr.port with
      select := false, tracked := if e.cls = .mode4 then .four else .three } := by
  unfold endForward Transaction.cls
  rw [he]
  rcases hcls with hc | hc <;> simp [hc]

theorem endForward_plain (s : State) (h : tr.entry = none ∨ ∃ e, tr.entry = some e ∧
    (e.cls = .pass ∨ e.cls = .program ∨ e.cls = .erase ∨ (e.cls = .read ∧ (tr.addressLength = 0 ∨
      s.control.phase ≠ .run ∨ s.power.state ≠ .active ∨ s.pool.record = none)))) :
    s.endForward tr = s.setPort tr.port { s.port tr.port with select := false } := by
  unfold endForward Transaction.cls
  rcases h with he | ⟨e, he, hc | hc | hc | ⟨hc, hquiet⟩⟩
  · rw [he]
    rfl
  · simp [he, hc]
  · simp [he, hc]
  · simp [he, hc]
  · simp only [he, hc, Option.map_some]
    split
    next hreported =>
      obtain ⟨hrun, hactive, hlength⟩ := hreported
      rcases hquiet with hz | hz | hz | hz
      · exact absurd hz hlength
      · exact absurd hrun hz
      · exact absurd hactive hz
      · unfold judgeGap
        rw [setPort_pool, hz]
    next => rfl

theorem endForward_read (s : State) {e : ClassEntry} (he : tr.entry = some e) (hcls : e.cls = .read)
    (hlength : tr.addressLength ≠ 0) (hrun : s.control.phase = .run) (hactive : s.power.state = .active) :
    s.endForward tr = (s.setPort tr.port { s.port tr.port with select := false }).judgeGap := by
  unfold endForward Transaction.cls
  simp [he, hcls, hlength, hrun, hactive]

/-- The gap of a reported READ, judged (R111, R113). -/
theorem judgeGap_eq {r : OpeningRecord} (h : s.pool.record = some r) : s.judgeGap = { s with
    pool := { s.pool with
      record := none
      gaps := if r.mark = true ∧ (s.segState r.seg = some .unseen ∨ s.segState r.seg = some .hashing) ∧
          r.seg ∉ s.pool.gaps ∧ s.pool.gaps.length < 32 then s.pool.gaps ++ [r.seg]
        else s.pool.gaps } } := by
  unfold judgeGap
  rw [h]
  dsimp only
  by_cases hmark : r.mark = true ∧ (s.segState r.seg = some .unseen ∨ s.segState r.seg = some .hashing)
  · rw [if_pos hmark, appendGap_eq]
    dsimp only
    by_cases hfull : r.seg ∈ s.pool.gaps ∨ 32 ≤ s.pool.gaps.length
    · rw [if_pos hfull, if_neg (by rintro ⟨-, -, hn, hl⟩; exact hfull.elim hn (by omega))]
    · rw [if_neg hfull]
      rw [not_or, Nat.not_le] at hfull
      rw [if_pos ⟨hmark.1, hmark.2, hfull⟩]
  · rw [if_neg hmark, if_neg (fun hall => hmark ⟨hall.1, hall.2.1⟩)]

theorem deassert_of_listening {p : Port} (hphase : s.control.phase = .run ∨ s.control.phase = .recovery)
    (h : (s.port p).upstream = true) : exec (.upstreamCsDeassert p) s =
      .next ((s.setPort p { s.port p with upstream := false }).deselectPort p) := by
  change execUpstreamCsDeassert p s = _
  unfold execUpstreamCsDeassert
  rw [if_pos h]
  dsimp only
  rw [if_pos (listening_iff.2 (by rwa [setPort_control]))]

/-- What a transaction's end leaves for the deselection of its port (R21). -/
theorem deselectPort_of_end {p : Port} {u : State} (h : s.endTransaction p = u) :
    s.deselectPort p = (u.setPort p ((u.port p).deselected u.time u.settings.holdoff)).judge := by
  unfold deselectPort
  rw [h]

end State

/-- Settles O30: how the transaction ends, then the deselection of the port. -/
theorem deassertEndsTheTransaction : Obligations.DeassertEndsTheTransaction := by
  intro p s hphase hup q
  have hexec := State.deassert_of_listening hphase hup
  rw [hexec]
  refine ⟨fun hother => ?_, fun tr htr hport => ?_⟩
  · rw [State.deselectPort_of_end (State.endTransaction_of_other (by simpa using hother))]
    cases p <;> rfl
  · have htr' : (s.setPort p { s.port p with upstream := false }).transaction = some tr := by
      rw [State.setPort_transaction, htr]
    refine ⟨fun hd => ?_, fun code tag hd hc => ?_, fun hd => ⟨fun e he hcls => ?_, fun hplain => ?_,
      fun e r he hcls hlength hrun hactive hrecord => ?_⟩⟩
    · rw [State.deselectPort_of_end (State.endTransaction_quiet htr' hport hd)]
      cases p <;> rfl
    · rw [State.deselectPort_of_end (State.endTransaction_short htr' hport hd hc)]
      cases p <;> rfl
    · rw [State.deselectPort_of_end (State.endTransaction_forward htr' hport hd), State.endForward_mode _ he hcls,
        hport]
      cases p <;> rfl
    · rw [State.deselectPort_of_end (State.endTransaction_forward htr' hport hd),
        State.endForward_plain _ (by simpa using hplain), hport]
      cases p <;> rfl
    · rw [State.deselectPort_of_end (State.endTransaction_forward htr' hport hd),
        State.endForward_read _ he hcls hlength (by simpa using hrun) (by simpa using hactive),
        State.judgeGap_eq (r := r) (by simpa using hrecord), hport]
      cases p <;> rfl

/-! ### The engine's timers -/

theorem reach_of_future {due now : Time} (h : (due - now).toNat < 2 ^ 31) : reach due now = due := if_pos h

theorem reachTime_of_future {due : Time} (h : (due - s.time).toNat < 2 ^ 31) :
    s.reachTime due = { s with time := due } := by
  unfold State.reachTime
  rw [reach_of_future h]

/-- Settles O36. -/
theorem holdoffAndPatrolTimersElapse : Obligations.HoldoffAndPatrolTimersElapse := by
  intro p s
  refine ⟨fun h hh hup hdue => ?_, fun start n hstart hdue => ?_⟩
  · change execPortAvailable p s = _
    unfold execPortAvailable
    rw [hh]
    dsimp only
    rw [if_neg (by simp [hup]), after, reachTime_of_future hdue]
    cases p <;> rfl
  · change execPatrolTimerExpiry s = _
    unfold execPatrolTimerExpiry
    rw [hstart]
    dsimp only
    rw [after, reachTime_of_future hdue]
    dsimp only
    rw [hstart]

/-! ### Bytes of a fill or patrol read -/

theorem fetchDataByte_of_context {r : FetchRead} {i : Nat} {c : Context} (hread : s.engine.read = some r)
    (hkind : r.kind = .fill i ∨ r.kind = .patrol i) (hc : s.pool.context i = some c) (b : Byte) :
    exec (.fetchDataByte b) s = .next
      (if c.fill + 1 = 32768 then (s.extend i b .fetch).completeRead else s.extend i b .fetch) := by
  have hbyte : s.fetchByte i b =
      if c.fill + 1 = 32768 then (s.extend i b .fetch).completeRead else s.extend i b .fetch := by
    unfold State.fetchByte
    rw [hc]
    rfl
  change execFetchDataByte b s = _
  unfold execFetchDataByte
  rw [hread]
  rcases hkind with hk | hk <;> simp only [hk, hbyte]

/-- A verdict leaves the phase and the engine (R108). -/
theorem State.writeVerdict_control (s : State) (i : Nat) (c : Context) (e : SegEntry) (stream : Stream) :
    (s.writeVerdict i c e stream).control = s.control ∧ (s.writeVerdict i c e stream).engine = s.engine := by
  obtain ⟨_, _, _, _, _, _, _, h⟩ := s.writeVerdict_frame i c e stream
  rw [h]
  exact ⟨rfl, rfl⟩

/-- Settles O35: the last byte's verdict, then the end of the read. -/
theorem fetchBytesExtendTheReadsContext : Obligations.FetchBytesExtendTheReadsContext := by
  intro b s r i c hread hkind hc hrun u
  rw [fetchDataByte_of_context hread hkind hc]
  refine ⟨fun hshort => by rw [if_neg hshort], fun e hlast he => ⟨fun hparity => ?_, fun hparity => ?_⟩⟩
  · rw [if_pos hlast]
    have hu : u = s.writeVerdict i (s.fed c b) e .fetch :=
      (State.extend_of_last hc hlast he b .fetch).trans (if_pos hparity)
    obtain ⟨hcontrol, hengine⟩ := s.writeVerdict_control i (s.fed c b) e .fetch
    rw [← hu] at hcontrol hengine
    unfold State.completeRead
    rw [if_neg (by rw [hcontrol, hrun]; decide), State.endRead_of_read (by rw [hengine]; exact hread)]
    rfl
  · rw [if_pos hlast, State.extend_of_last hc hlast he, if_neg hparity]
    obtain ⟨f, n, h⟩ := s.enterHalted_frame
    have hphase : s.enterHalted.control.phase = .halted := by rw [h]
    unfold State.completeRead
    rw [if_pos hphase]
    exact ⟨_, rfl, by rw [h]; exact ⟨rfl, rfl, rfl, rfl, rfl, rfl, rfl, rfl⟩⟩

end Sys2Proof.Machine
end

section
/-!
The fetch engine (chapter 7): how a read starts (O31), the sweep (O33) and the patrol (O34).
-/
namespace Sys2Proof.Machine
variable {s : State}

/-! ### The engine read command (R34) -/

theorem beBytes_three (v : Nat) :
    beBytes 3 v = [BitVec.ofNat 8 (v / 256 ^ 2), BitVec.ofNat 8 (v / 256 ^ 1), BitVec.ofNat 8 (v / 256 ^ 0)] := by
  simp [beBytes, leBytes, Nat.div_div_eq_div_mul]

theorem beBytes_four (v : Nat) : beBytes 4 v = [BitVec.ofNat 8 (v / 256 ^ 3), BitVec.ofNat 8 (v / 256 ^ 2),
    BitVec.ofNat 8 (v / 256 ^ 1), BitVec.ofNat 8 (v / 256 ^ 0)] := by
  simp [beBytes, leBytes, Nat.div_div_eq_div_mul]

/-- A byte of an address below 2^24 is that of the address modulo 16 MiB. -/
theorem addressByte_mod (a : Nat) {j : Nat} (hj : j < 3) :
    BitVec.ofNat 8 (a % 2 ^ 24 / 256 ^ j) = BitVec.ofNat 8 (a / 256 ^ j) := by
  apply BitVec.eq_of_toNat_eq
  rw [BitVec.toNat_ofNat, BitVec.toNat_ofNat]
  match j, hj with
  | 0, _ | 1, _ | 2, _ => omega

theorem sentBytes_eq (m : AddrMode) (a : Nat) : m.sentBytes a =
    if m = .three then [BitVec.ofNat 8 (a / 256 ^ 2), BitVec.ofNat 8 (a / 256 ^ 1), BitVec.ofNat 8 (a / 256 ^ 0)]
    else [BitVec.ofNat 8 (a / 256 ^ 3), BitVec.ofNat 8 (a / 256 ^ 2), BitVec.ofNat 8 (a / 256 ^ 1),
      BitVec.ofNat 8 (a / 256 ^ 0)] := by
  cases m with
  | three =>
    rw [AddrMode.sentBytes, beBytes_three, addressByte_mod a (by decide), addressByte_mod a (by decide),
      addressByte_mod a (by decide)]
    rfl
  | four =>
    rw [AddrMode.sentBytes, beBytes_four]
    rfl

namespace State

/-- A read starts on a state whose segments, pool and engine have changed (R21, R119). -/
theorem startRead_of (s : State) (segments : List SegEntry) (pool : Pool) (engine : Engine) (job : Job)
    (r : FetchRead) :
    State.startRead { s with segments := segments, pool := pool, engine := engine } job r =
      { s.setPort r.port { s.port r.port with owner := .fetch, select := true } with
        segments := segments, pool := pool, engine := { engine with job := job, read := some r } } := by
  obtain ⟨p, _, _, _, _, _, _, _, _, _⟩ := r
  cases p <;> rfl

/-- A read starts on a state whose pool and engine have changed (R21, R119). -/
theorem startRead_of_pool (s : State) (pool : Pool) (engine : Engine) (job : Job) (r : FetchRead) :
    State.startRead { s with pool := pool, engine := engine } job r =
      { s.setPort r.port { s.port r.port with owner := .fetch, select := true } with
        pool := pool, engine := { engine with job := job, read := some r } } := by
  obtain ⟨p, _, _, _, _, _, _, _, _, _⟩ := r
  cases p <;> rfl

theorem startFill_eq {i : Nat} (h : s.pool.freeSlot = some i) (g : Nat) : s.startFill g =
    (((s.setSlot i (some (freshContext g .verify .fetch s.time))).setSegState g .hashing).purgeGap g).startRead .fill
      (s.contextRead (.fill i) (freshContext g .verify .fetch s.time)) := by
  unfold startFill
  rw [h]
  rfl

theorem startPatrol_eq {i : Nat} (h : s.pool.freeSlot = some i) (g : Nat) : s.startPatrol g =
    State.startRead { (s.setSlot i (some (freshContext g .patrol .fetch s.time))).startPatrolTimer with
      engine := { (s.setSlot i (some (freshContext g .patrol .fetch s.time))).startPatrolTimer.engine with
        cursor := if g = 2047 then 0 else g + 1 } } .patrol
      (s.contextRead (.patrol i) (freshContext g .patrol .fetch s.time)) := by
  unfold startPatrol
  rw [h]
  rfl

theorem resume_verify {i : Nat} {c : Context} (hc : s.pool.context i = some c) (hrole : c.role = .verify) :
    s.resume i = ((s.setSlot i (some { c with source := .fetch })).purgeGap c.seg).startRead .fill
      (s.contextRead (.fill i) c) := by
  unfold resume
  rw [hc]
  dsimp only
  rw [hrole]
  rfl

theorem resume_patrol {i : Nat} {c : Context} (hc : s.pool.context i = some c) (hrole : c.role = .patrol) :
    s.resume i = (s.setSlot i (some { c with source := .fetch })).startRead .patrol (s.contextRead (.patrol i) c) := by
  unfold resume
  rw [hc]
  dsimp only
  rw [hrole]
  rfl

end State

/-- Settles O31: each start is a change of the pool followed by `State.startRead`. -/
theorem fillAndPatrolReadsStart : Obligations.FillAndPatrolReadsStart := by
  intro s g i p k byte address read taken fresh
  have hread : ∀ kind (c : Context), c.seg = g → s.contextRead kind c = read kind c.fill := fun kind c hg => by
    subst hg
    unfold State.contextRead Fuses.dataRead
    dsimp only
    rw [sentBytes_eq]
    rfl
  refine ⟨fun h => ⟨?_, ?_⟩, fun c hc hg => ⟨fun hrole => ?_, fun hrole => ?_⟩⟩
  · rw [State.startFill_eq h, hread _ _ rfl]
    exact State.startRead_of s _ _ _ _ _
  · rw [State.startPatrol_eq h, hread _ _ rfl]
    exact State.startRead_of_pool s _ _ _ _
  · rw [State.resume_verify hc hrole, hread _ _ hg, hg]
    exact State.startRead_of_pool s _ _ _ _
  · rw [State.resume_patrol hc hrole, hread _ _ hg]
    exact State.startRead_of_pool s _ _ _ _

/-! ### Candidates (R121 to R125) -/

namespace State

theorem liveCandidate_none (h : ∀ i c, s.pool.context i = some c → c.role = .verify →
    s.portFree (segmentPort c.seg) = false) : s.liveCandidate = none := by
  have hnil : s.pool.verifyContexts (fun c => s.portFree (segmentPort c.seg)) = [] :=
    List.eq_nil_iff_forall_not_mem.2 fun ⟨i, c⟩ hmem => by
      obtain ⟨hc, hrole, hport⟩ := Pool.mem_verifyContexts.1 hmem
      rw [h i c hc hrole] at hport
      cases hport
  unfold liveCandidate
  rw [hnil]
  rfl

/-- With no gap queue entry to serve and no live context, the sweep's region is the first candidate (R121). -/
theorem candidate_of_sweep {x : Candidacy} (hgaps : ∀ g ∈ s.pool.gaps, ¬ s.Servable g)
    (hlive : s.liveCandidate = none) (hsweep : s.sweepCandidate = some x) : s.candidate = x := by
  have hnone : s.pool.gaps.findSome? s.gapCandidate = none :=
    List.findSome?_eq_none_iff.2 fun g hg => gapCandidate_eq_none (hgaps g hg)
  simp [candidate, hnone, hlive, hsweep]

/-- With no fill candidate the judgment comes to the patrol (R121). -/
theorem candidate_of_no_fill (hgaps : ∀ g ∈ s.pool.gaps, ¬ s.Servable g) (hlive : s.liveCandidate = none)
    (hsweep : s.sweepCandidate = none) :
    s.candidate = ((s.patrolResumption.or s.patrolStart).getD .nothing) := by
  have hnone : s.pool.gaps.findSome? s.gapCandidate = none :=
    List.findSome?_eq_none_iff.2 fun g hg => gapCandidate_eq_none (hgaps g hg)
  unfold candidate
  simp only [hnone, hlive, hsweep]
  cases s.patrolResumption with
  | some x => rfl
  | none => cases s.patrolStart <;> rfl

/-! ### The sweep (R125) -/

/-- The place of a region in the sweep: its group (R125). -/
def sweepRank (s : State) (e : Nat × Region) : Nat :=
  if s.engine.fillMask.getLsbD e.1 then 0 else if e.2.touched then 1 else 2

/-- A region comes before another in the sweep (R125). -/
def sweepsBefore (s : State) (a b : Nat × Region) : Prop :=
  s.sweepRank a < s.sweepRank b ∨ s.sweepRank a = s.sweepRank b ∧ a.1 < b.1

theorem mem_sweepOrder {j : Nat} {q : Region} : (j, q) ∈ s.sweepOrder ↔ s.regions[j]? = some q := by
  have hall : (j, q) ∈ s.regions.zipIdx.map (fun e => (e.2, e.1)) ↔ s.regions[j]? = some q := by
    simp only [List.mem_map, Prod.mk.injEq, Prod.exists]
    constructor
    · rintro ⟨r, i, hmem, rfl, rfl⟩
      exact List.mk_mem_zipIdx_iff_getElem?.1 hmem
    · exact fun h => ⟨q, j, List.mk_mem_zipIdx_iff_getElem?.2 h, rfl, rfl⟩
  unfold sweepOrder
  simp only [List.mem_append, List.mem_filter, hall]
  cases s.engine.fillMask.getLsbD j <;> cases q.touched <;> simp

/-- The sweep's order is that of the groups, each ascending (R125). -/
theorem sweepOrder_pairwise (s : State) : s.sweepOrder.Pairwise s.sweepsBefore := by
  have hall : (s.regions.zipIdx.map (fun e => (e.2, e.1))).Pairwise (fun a b => a.1 < b.1) := by
    rw [List.pairwise_map]
    have hsnd := List.pairwise_lt_range' (s := 0) (n := s.regions.length)
    rw [← List.zipIdx_map_snd, List.pairwise_map] at hsnd
    exact hsnd
  have hgroup : ∀ (keep : Nat × Region → Bool) (n : Nat), (∀ e, keep e = true → s.sweepRank e = n) →
      ((s.regions.zipIdx.map (fun e => (e.2, e.1))).filter keep).Pairwise s.sweepsBefore := fun keep n hn =>
    (hall.filter keep).imp_of_mem fun ha hb hlt =>
      .inr ⟨(hn _ (List.mem_filter.1 ha).2).trans (hn _ (List.mem_filter.1 hb).2).symm, hlt⟩
  have h0 : ∀ e : Nat × Region, s.engine.fillMask.getLsbD e.1 = true → s.sweepRank e = 0 := fun e he => if_pos he
  have h1 : ∀ e : Nat × Region, (!s.engine.fillMask.getLsbD e.1 && e.2.touched) = true → s.sweepRank e = 1 := fun e he => by
    rw [Bool.and_eq_true, Bool.not_eq_true'] at he
    rw [sweepRank, he.1, he.2]
    rfl
  have h2 : ∀ e : Nat × Region, (!s.engine.fillMask.getLsbD e.1 && !e.2.touched) = true → s.sweepRank e = 2 := fun e he => by
    rw [Bool.and_eq_true, Bool.not_eq_true', Bool.not_eq_true'] at he
    rw [sweepRank, he.1, he.2]
    rfl
  unfold sweepOrder
  refine List.pairwise_append.2 ⟨List.pairwise_append.2 ⟨hgroup _ 0 h0, hgroup _ 1 h1, fun a ha b hb => ?_⟩,
    hgroup _ 2 h2, fun a ha b hb => ?_⟩
  · rw [sweepsBefore, h0 a (List.mem_filter.1 ha).2, h1 b (List.mem_filter.1 hb).2]
    exact .inl (by decide)
  · have hb2 := h2 b (List.mem_filter.1 hb).2
    rcases List.mem_append.1 ha with ha | ha
    · rw [sweepsBefore, h0 a (List.mem_filter.1 ha).2, hb2]
      exact .inl (by decide)
    · rw [sweepsBefore, h1 a (List.mem_filter.1 ha).2, hb2]
      exact .inl (by decide)

theorem lowestUnseen_of_lowest {r : Region} {x : Nat} (hx : x < r.count)
    (hst : s.segState (r.segmentAt x) = some .unseen)
    (hlow : ∀ y, y < x → s.segState (r.segmentAt y) ≠ some .unseen) :
    s.lowestUnseen r = some (r.segmentAt x) := by
  have hfind : (List.range r.count).find? ((fun g => decide (s.segState g = some .unseen)) ∘ r.segmentAt) = some x :=
    List.find?_range_eq_some.2 ⟨decide_eq_true hst, List.mem_range.2 hx, fun y hy => by simp [hlow y hy]⟩
  unfold lowestUnseen
  rw [List.find?_map, hfind]
  rfl

theorem lowestUnseen_none {r : Region} (h : ∀ y, y < r.count → s.segState (r.segmentAt y) ≠ some .unseen) :
    s.lowestUnseen r = none := by
  unfold lowestUnseen
  rw [List.find?_eq_none]
  intro g hg
  obtain ⟨y, hy, rfl⟩ := List.mem_map.1 hg
  simpa using h y (List.mem_range.1 hy)

/-- What the sweep takes of one region (R125). -/
def swept (s : State) (e : Nat × Region) : Option Nat := if s.portFree e.2.port then s.lowestUnseen e.2 else none

theorem sweepCandidate_eq (s : State) : s.sweepCandidate =
    if s.pool.freeSlot.isSome then (s.sweepOrder.findSome? s.swept).map .fill else none := rfl

end State

/-- Settles O33: the first region of the sweep's order that yields a segment. -/
theorem sweepTakesMaskedThenTouchedRegions : Obligations.SweepTakesMaskedThenTouchedRegions := by
  intro s k x r hrun hactive hidle hcontext free rank unseenAt hgaps hlive hr hfree hx hlow hbefore
  have hport : ∀ p, s.portFree p = true ↔ free p := s.portFree_iff
  have hgaps' : ∀ g ∈ s.pool.gaps, ¬ s.Servable g := fun g hg ⟨hp, hst⟩ => by
    obtain ⟨hh, hu⟩ := hgaps g hg hp
    exact hst.elim hh (fun h => hu h.1)
  have hlive' : s.liveCandidate = none := State.liveCandidate_none fun i c hc hrole =>
    Bool.eq_false_iff.2 fun hp => hlive i c hc hrole ((hport _).1 hp)
  have hsweep : s.sweepOrder.findSome? s.swept = some (r.segmentAt x) := by
    obtain ⟨pre, post, hsplit⟩ := List.append_of_mem (State.mem_sweepOrder.2 hr)
    have hpair := s.sweepOrder_pairwise
    rw [hsplit, List.pairwise_append] at hpair
    have hpre : pre.findSome? s.swept = none := List.findSome?_eq_none_iff.2 fun ⟨j, q⟩ hmem => by
      have hq : s.regions[j]? = some q := State.mem_sweepOrder.1 (by rw [hsplit]; exact List.mem_append_left _ hmem)
      have hlt : s.sweepsBefore (j, q) (k, r) := hpair.2.2 _ hmem _ (List.mem_cons_self ..)
      unfold State.swept
      split
      next hp => exact State.lowestUnseen_none fun y hy hst => hbefore j q hq ((hport _).1 hp) hlt y ⟨hy, hst⟩
      next => rfl
    have hhere : s.swept (k, r) = some (r.segmentAt x) :=
      (if_pos ((hport _).2 hfree)).trans (State.lowestUnseen_of_lowest hx.1 hx.2 fun y hy hst =>
        hlow y hy ⟨Nat.lt_trans hy hx.1, hst⟩)
    rw [hsplit, List.findSome?_append, hpre, Option.none_or, List.findSome?_cons, hhere]
  have hcandidate : s.candidate = .fill (r.segmentAt x) := State.candidate_of_sweep hgaps' hlive' (by
    rw [State.sweepCandidate_eq, if_pos (Pool.freeSlot_isSome hcontext), hsweep]
    rfl)
  rw [State.judge_eq (State.engineFree_of hrun hactive hidle), hcandidate]
  rfl

/-! ### The patrol (R131, R132) -/

namespace State

theorem sweepCandidate_none (h : (∃ i, i < s.pool.slots.length ∧ s.pool.context i = none) →
    ∀ r ∈ s.regions, s.portFree r.port = true → ∀ k, k < r.count →
      s.segState (r.segmentAt k) ≠ some .unseen) : s.sweepCandidate = none := by
  rw [sweepCandidate_eq]
  split
  next hfree =>
    have hnone : s.sweepOrder.findSome? s.swept = none := List.findSome?_eq_none_iff.2 fun ⟨j, q⟩ hmem => by
      have hq : q ∈ s.regions := List.mem_of_getElem? (mem_sweepOrder.1 hmem)
      unfold swept
      split
      next hp => exact lowestUnseen_none (h (s.pool.freeSlot_iff.1 hfree) q hq hp)
      next => rfl
    rw [hnone]
    rfl
  next => rfl

theorem patrolResumption_of_none (h : s.pool.patrolSlot = none) : s.patrolResumption = none := by
  unfold patrolResumption
  rw [h]

/-- What a live PATROL context yields (R132). -/
theorem patrolResumption_of_context {i : Nat} {c : Context} (hslot : s.pool.patrolSlot = some i)
    (hc : s.pool.context i = some c) : s.patrolResumption =
      if s.settings.patrol = 0 then some (.freePatrol i)
      else if s.portFree (segmentPort c.seg) then some (.resumePatrol i) else none := by
  unfold patrolResumption
  rw [hslot]
  dsimp only
  rw [hc]

theorem patrolStart_of_slot {i : Nat} (h : s.pool.patrolSlot = some i) : s.patrolStart = none := by
  unfold patrolStart
  rw [if_neg]
  rintro ⟨-, -, -, hnone, -⟩
  rw [h] at hnone
  cases hnone

theorem patrolEligible_iff {g : Nat} : s.patrolEligible g = true ↔
    s.segState g = some .verified ∧ ∃ r, s.regionOf g = some r ∧ r.patrol = true := by
  unfold patrolEligible
  cases s.regionOf g <;> simp

theorem mem_eligible {g : Nat} :
    g ∈ (s.segments.map (·.seg)).filter s.patrolEligible ↔ s.patrolEligible g = true := by
  rw [List.mem_filter]
  refine ⟨And.right, fun h => ⟨?_, h⟩⟩
  obtain ⟨e, he, -⟩ := Option.map_eq_some_iff.1 (patrolEligible_iff.1 h).1
  exact List.mem_map.2 ⟨e, List.mem_of_find?_eq_some he, by simpa using List.find?_some he⟩

/-- The first eligible segment from the cursor upward (R131). -/
theorem patrolNext_of_first {g : Nat} (hg : s.patrolEligible g = true)
    (hfirst : ∀ h, s.patrolEligible h = true → (s.engine.cursor ≤ g → s.engine.cursor ≤ h → g ≤ h) ∧
      (g < s.engine.cursor → h < s.engine.cursor ∧ g ≤ h)) : s.patrolNext = some g := by
  unfold patrolNext
  dsimp only
  by_cases hcursor : s.engine.cursor ≤ g
  · have habove : smallest (((s.segments.map (·.seg)).filter s.patrolEligible).filter
        (fun g => decide (s.engine.cursor ≤ g))) = some g := smallest_eq_some_iff.2 (by
      refine ⟨List.mem_filter.2 ⟨mem_eligible.2 hg, decide_eq_true hcursor⟩, fun h hh => ?_⟩
      obtain ⟨hmem, hle⟩ := List.mem_filter.1 hh
      exact (hfirst h (mem_eligible.1 hmem)).1 hcursor (of_decide_eq_true hle))
    rw [habove]
  · have hbelow : ((s.segments.map (·.seg)).filter s.patrolEligible).filter
        (fun g => decide (s.engine.cursor ≤ g)) = [] := List.filter_eq_nil_iff.2 fun h hh => by
      have hlt := ((hfirst h (mem_eligible.1 hh)).2 (Nat.lt_of_not_le hcursor)).1
      simpa using hlt
    rw [hbelow]
    exact smallest_eq_some_iff.2 ⟨mem_eligible.2 hg, fun h hh =>
      ((hfirst h (mem_eligible.1 hh)).2 (Nat.lt_of_not_le hcursor)).2⟩

theorem patrolNext_none (h : ∀ g, ¬ s.patrolEligible g = true) : s.patrolNext = none := by
  have hnil : (s.segments.map (·.seg)).filter s.patrolEligible = [] := List.filter_eq_nil_iff.2 fun g _ => h g
  unfold patrolNext
  rw [hnil]
  rfl

theorem patrolStart_of_ready (h : s.settings.patrol ≠ 0 ∧ s.control.bootConfirmed = true ∧ s.engine.due = true ∧
    s.pool.patrolSlot = none ∧ s.pool.freeSlot.isSome = true) {g : Nat} (hg : s.patrolNext = some g) :
    s.patrolStart = if s.portFree (segmentPort g) then some (.startPatrol g) else none := by
  unfold patrolStart
  rw [if_pos h, hg]

theorem patrolStart_none (h : s.settings.patrol = 0 ∨ s.control.bootConfirmed = false ∨ s.engine.due = false ∨
    ¬ s.pool.freeSlot.isSome = true ∨ ∀ g, ¬ s.patrolEligible g = true) : s.patrolStart = none := by
  unfold patrolStart
  split
  next hready =>
    obtain ⟨hpatrol, hboot, hdue, -, hfree⟩ := hready
    rcases h with h | h | h | h | h
    · exact absurd h hpatrol
    · rw [h] at hboot; cases hboot
    · rw [h] at hdue; cases hdue
    · exact absurd hfree h
    · rw [patrolNext_none h]
  next => rfl

/-- One round of a judgment is the whole of it where no PATROL context is live. -/
theorem judgeWith_of_no_patrol (h : s.pool.patrolSlot = none) : State.judgeWith 1 s = s.judge := by
  unfold judge judgeWith
  split
  next =>
    cases hx : s.candidate with
    | freePatrol i =>
      have hslot := patrolSlot_of_candidate_freePatrol hx
      rw [h] at hslot
      cases hslot
    | _ => rfl
  next => rfl

end State

/-- No fill candidate is left: no servable gap queue entry, no live context and nothing for the sweep. -/
def State.noFill (s : State) : Prop :=
  (∀ g ∈ s.pool.gaps, ¬ s.Servable g) ∧ s.liveCandidate = none ∧ s.sweepCandidate = none

theorem State.candidate_of_noFill (h : s.noFill) :
    s.candidate = (s.patrolResumption.or s.patrolStart).getD .nothing :=
  candidate_of_no_fill h.1 h.2.1 h.2.2

/-- What stands before the patrol's turn in the statement: no context or entry is to be served on a free port. -/
theorem State.noFill_of (hgaps : ∀ g ∈ s.pool.gaps, ¬ s.Servable g)
    (hlive : ∀ i c, s.pool.context i = some c → c.role = .verify → ¬ s.portFree (segmentPort c.seg) = true)
    (hsweep : (∃ i, i < s.pool.slots.length ∧ s.pool.context i = none) → ∀ r ∈ s.regions,
      s.portFree r.port = true → ∀ k, k < r.count → s.segState (r.segmentAt k) ≠ some .unseen) : s.noFill :=
  ⟨hgaps, liveCandidate_none fun i c hc hrole => Bool.eq_false_iff.2 (hlive i c hc hrole), sweepCandidate_none hsweep⟩

/-- Settles O34: with no fill candidate the judgment is the patrol's, by its context or its cursor. -/
theorem patrolTakesTheFirstEligibleSegment : Obligations.PatrolTakesTheFirstEligibleSegment := by
  intro s hrun hactive hidle hlength onFreePort contextFree eligible hgaps hlive hsweep
  have hport : ∀ g, s.portFree (segmentPort g) = true ↔ onFreePort g := fun g => s.portFree_iff _
  have hcontext : (∃ i, i < s.pool.slots.length ∧ s.pool.context i = none) ↔ contextFree := by rw [hlength]
  have heligible : ∀ g, s.patrolEligible g = true ↔ eligible g := fun g => State.patrolEligible_iff
  have hservable : ∀ g ∈ s.pool.gaps, ¬ s.Servable g := fun g hg hs => hgaps g hg (by
    unfold State.Servable at hs
    rwa [hcontext] at hs)
  have hfill : s.noFill := State.noFill_of hservable (fun i c hc hrole hp => hlive i c hc hrole ((hport _).1 hp))
    fun hfree r hr hp => hsweep (hcontext.1 hfree) r hr ((s.portFree_iff _).1 hp).1 ((s.portFree_iff _).1 hp).2
  have hjudge := State.judge_eq (State.engineFree_of hrun hactive hidle)
  rw [State.candidate_of_noFill hfill] at hjudge
  refine ⟨fun i c hc hrole honly => ?_, fun hverify => ?_⟩
  · intro freed
    have hslot : s.pool.patrolSlot = some i := by
      obtain ⟨j, hj⟩ := Pool.patrolSlot_isSome hc hrole
      obtain ⟨d, hd, hdrole⟩ := Pool.patrolSlot_some hj
      rw [hj, honly j d hd hdrole]
    rw [State.patrolResumption_of_context hslot hc, State.patrolStart_of_slot hslot] at hjudge
    have hfreed : s.freePatrol i = freed := by
      unfold State.freePatrol
      rw [hc]
      rfl
    have hremain : ∀ j d, freed.pool.context j = some d → j ≠ i ∧ s.pool.context j = some d := fun j d hd =>
      State.of_context_setSlot_none hd
    have hnone : freed.pool.patrolSlot = none := Pool.patrolSlot_none fun j d hd => by
      obtain ⟨hj, hd⟩ := hremain j d hd
      cases hdrole : d.role with
      | verify => rfl
      | patrol => exact absurd (honly j d hd hdrole) hj
    have hfreeing : s.settings.patrol = 0 → s.judge = freed.judge := fun hpatrol => by
      rw [hjudge, if_pos hpatrol, ← State.judgeWith_of_no_patrol hnone, ← hfreed]
      rfl
    refine ⟨fun hpatrol hp => ?_, fun hpatrol hp => ?_, hfreeing, fun hpatrol hfree => ?_⟩
    · rw [hjudge, if_neg hpatrol, if_pos ((hport _).2 hp)]
      rfl
    · rw [hjudge, if_neg hpatrol, if_neg (mt (hport _).1 hp)]
      rfl
    · rw [hfreeing hpatrol, State.judge_eq (s := freed) (State.engineFree_of hrun hactive hidle),
        State.candidate_of_noFill (s := freed), State.patrolResumption_of_none hnone,
        State.patrolStart_none (s := freed) (.inl hpatrol)]
      · rfl
      · refine State.noFill_of (fun g hg hs => hservable g hg ?_) (fun j d hd hdrole hp => ?_)
          (fun _ r hr hp => hsweep hfree r hr ((s.portFree_iff _).1 hp).1 ((s.portFree_iff _).1 hp).2)
        · exact ⟨hs.1, hs.2.imp id fun h => ⟨h.1, hcontext.2 hfree⟩⟩
        · exact hlive j d (hremain j d hd).2 hdrole ((hport _).1 hp)
  · have hslot : s.pool.patrolSlot = none := Pool.patrolSlot_none hverify
    rw [State.patrolResumption_of_none hslot, Option.none_or] at hjudge
    refine ⟨fun hnot => ?_, fun g hpatrol hboot hdue hfree hg hfirst => ?_⟩
    · rw [hjudge, State.patrolStart_none]
      · rfl
      · rw [Pool.freeSlot_iff, hcontext]
        simpa only [heligible] using hnot
    · have hnext : s.patrolNext = some g := State.patrolNext_of_first ((heligible g).2 hg) fun h hh =>
        hfirst h ((heligible h).1 hh)
      have hready := State.patrolStart_of_ready
        ⟨hpatrol, hboot, hdue, hslot, Pool.freeSlot_isSome (hcontext.2 hfree)⟩ hnext
      rw [hready] at hjudge
      refine ⟨fun hp => ?_, fun hp => ?_⟩
      · rw [hjudge, if_pos ((hport g).2 hp)]
        rfl
      · rw [hjudge, if_neg (mt (hport g).1 hp)]
        rfl

end Sys2Proof.Machine
end

section
/-!
The gates, the sequence timer, the deadline, the tamper input and the alert line (chapters 8 and 9).
-/
namespace Sys2Proof.Machine
variable {s : State}

namespace State

/-! ### The print gate's moves (R140) -/

/-- The latched sequence timer, and whether an expiry of the one it replaces is yet to come (R141, R145). -/
theorem sequenceStart_eq (s : State) : s.sequenceStart = ⟨s.time, s.settings.interval, match s.gates.timer with
    | none => false
    | some old => decide ((s.time - (old.start + BitVec.ofNat 32 (1000 * old.interval))).toNat < 2 ^ 31) ||
        (old.superseded && decide (old.start = s.time))⟩ := by
  unfold sequenceStart
  cases s.gates.timer <;> rfl

theorem settlePrint_of_rise (hgood : s.gateGood s.gates.print = true)
    (hst : s.gates.print.state = .off ∨ s.gates.print.state = .falling) : s.settlePrint =
      if s.settings.interval = 0 then s.printOn else s.setPrint .rising (some s.sequenceStart) := by
  unfold settlePrint
  rcases hst with h | h <;> rw [h, hgood] <;> rfl

theorem settlePrint_of_fall (hgood : s.gateGood s.gates.print = false)
    (hst : s.gates.print.state = .rising ∨ s.gates.print.state = .on) : s.settlePrint =
      if s.settings.interval = 0 then s.setPrint .off none else s.setPrint .falling (some s.sequenceStart) := by
  unfold settlePrint
  rcases hst with h | h <;> rw [h, hgood] <;> rfl

theorem settlePrint_of_rest
    (h : s.gateGood s.gates.print = true ∧ (s.gates.print.state = .rising ∨ s.gates.print.state = .on) ∨
      s.gateGood s.gates.print = false ∧ (s.gates.print.state = .off ∨ s.gates.print.state = .falling)) :
    s.settlePrint = s := by
  unfold settlePrint
  rcases h with ⟨hg, h | h⟩ | ⟨hg, h | h⟩ <;> rw [h, hg]

theorem confirmBoot_of_confirmed (h : s.control.bootConfirmed = true) : s.confirmBoot = s := if_pos h

theorem confirmBoot_of_first (h : s.control.bootConfirmed = false) : s.confirmBoot = { s with
    control := { s.control with bootConfirmed := true }
    gates := { s.gates with deadline := .disarmed }
    engine := { s.engine with
      timer := { start := if s.settings.patrol = 0 then none else some s.time, interval := s.settings.patrol }
      due := decide (s.settings.patrol = 0) } } := by
  unfold confirmBoot
  rw [if_neg (by simp [h])]
  rfl

/-- What the settling gates leave: the print gate's move, then the scan gate at rest (R142). -/
theorem settleGates_eq (s : State) : s.settleGates =
    s.settlePrint.setScan (if s.gateGood s.gates.scan = true then .on else .off) := by
  have hgood : s.settlePrint.gateGood s.settlePrint.gates.scan = s.gateGood s.gates.scan := by
    obtain ⟨_, _, _, _, _, _, _, _, h⟩ := s.settlePrint_frame
    rw [h]
    rfl
  unfold settleGates settleScan
  rw [hgood]
  split <;> rfl

/-- A gate may rise: its condition holds and its latch is clear (R138, R140). -/
theorem gateGood_iff_condition {g : Gate} : s.gateGood g = true ↔ s.control.phase = .run ∧ s.power.state = .active ∧
    g.latch = false ∧ ∀ i, i < 16 → g.mask.getLsbD i = true → s.summary i = .verified := by
  rw [gateGood_iff, maskProven_iff]
  exact ⟨fun ⟨hrun, hactive, hmask, hlatch⟩ => ⟨hrun, hactive, hlatch, hmask⟩,
    fun ⟨hrun, hactive, hlatch, hmask⟩ => ⟨hrun, hactive, hmask, hlatch⟩⟩

/-- Only the first ON confirms the boot: every other move of the print gate leaves the control, the engine and
the deadline (R144). -/
theorem settlePrint_kept (h : s.gateGood s.gates.print = false ∨ s.gates.print.state = .rising ∨
    s.gates.print.state = .on ∨ s.settings.interval ≠ 0 ∨ s.control.bootConfirmed = true) :
    s.settlePrint.control = s.control ∧ s.settlePrint.engine = s.engine ∧
      s.settlePrint.gates.deadline = s.gates.deadline := by
  cases hgood : s.gateGood s.gates.print with
  | false =>
    by_cases hup : s.gates.print.state = .rising ∨ s.gates.print.state = .on
    · rw [settlePrint_of_fall hgood hup]
      split <;> exact ⟨rfl, rfl, rfl⟩
    · rw [settlePrint_of_rest (.inr ⟨hgood, by cases hst : s.gates.print.state <;> simp [hst] at hup ⊢⟩)]
      exact ⟨rfl, rfl, rfl⟩
  | true =>
    by_cases hup : s.gates.print.state = .rising ∨ s.gates.print.state = .on
    · rw [settlePrint_of_rest (.inl ⟨hgood, hup⟩)]
      exact ⟨rfl, rfl, rfl⟩
    · rw [settlePrint_of_rise hgood (by cases hst : s.gates.print.state <;> simp [hst] at hup ⊢)]
      split
      next hn =>
        have hboot : s.control.bootConfirmed = true := by
          rcases h with h | h | h | h | h
          · rw [hgood] at h; cases h
          · exact absurd (.inl h) hup
          · exact absurd (.inr h) hup
          · exact absurd hn h
          · exact h
        rw [printOn, confirmBoot_of_confirmed (by exact hboot)]
        exact ⟨rfl, rfl, rfl⟩
      next => exact ⟨rfl, rfl, rfl⟩

end State

/-- Settles O37: the print gate's line of the table, then the scan gate's. -/
theorem gatesMoveByTheTable : Obligations.GatesMoveByTheTable := by
  intro s n late good
  have hgood : ∀ g, s.gateGood g = true ↔ good g := fun g => State.gateGood_iff_condition
  have hbad : ∀ g, ¬ good g → s.gateGood g = false := fun g hg => Bool.eq_false_iff.2 (mt (hgood g).1 hg)
  have hstart : s.sequenceStart = ⟨s.time, n, late⟩ := s.sequenceStart_eq
  refine ⟨s.settleGates, rfl, ?_⟩
  obtain ⟨_, _, _, _, _, _, _, _, _, _, hframe⟩ := s.settleGates_frame
  refine ⟨by rw [hframe], by rw [hframe], by rw [hframe], ?_⟩
  rw [State.settleGates_eq]
  refine ⟨fun hg hst hn => ?_, fun hg hst hn => ?_, fun hg hst hn => ?_, fun hg hst hn => ?_, fun hrest => ?_,
    fun hg hst hn hboot => ?_, fun hkept => ?_, fun hg => ?_, fun hg => ?_⟩
  · rw [State.settlePrint_of_rise ((hgood _).2 hg) hst, if_neg hn, hstart]
    exact ⟨rfl, rfl, rfl, rfl, rfl⟩
  · rw [State.settlePrint_of_rise ((hgood _).2 hg) hst, if_pos hn, State.printOn]
    cases hboot : s.control.bootConfirmed with
    | true =>
      rw [State.confirmBoot_of_confirmed (by exact hboot)]
      exact ⟨rfl, rfl, hboot, rfl, rfl⟩
    | false =>
      rw [State.confirmBoot_of_first (by exact hboot)]
      exact ⟨rfl, rfl, rfl, rfl, rfl⟩
  · rw [State.settlePrint_of_fall (hbad _ hg) hst, if_neg hn, hstart]
    exact ⟨rfl, rfl, rfl, rfl⟩
  · rw [State.settlePrint_of_fall (hbad _ hg) hst, if_pos hn]
    exact ⟨rfl, rfl, rfl, rfl⟩
  · rw [State.settlePrint_of_rest (hrest.imp (fun h => ⟨(hgood _).2 h.1, h.2⟩) (fun h => ⟨hbad _ h.1, h.2⟩))]
    exact ⟨rfl, rfl, rfl, rfl⟩
  · rw [State.settlePrint_of_rise ((hgood _).2 hg) hst, if_pos hn, State.printOn,
      State.confirmBoot_of_first (by exact hboot)]
    exact ⟨rfl, rfl, rfl⟩
  · exact State.settlePrint_kept (hkept.imp_left (hbad _))
  · rw [if_pos ((hgood _).2 hg)]
    exact ⟨rfl, rfl⟩
  · rw [if_neg (mt (hgood _).1 hg)]
    exact ⟨rfl, rfl⟩

/-! ### The sequence timer (R140, R145) -/

theorem expiry_of_replaced {timer : SequenceTimer} (h : s.gates.timer = some timer)
    (hlate : timer.superseded = true ∧ timer.start = s.time) :
    exec .sequenceTimerExpiry s = .next (s.replacedExpiry timer) := by
  change execSequenceTimerExpiry s = _
  unfold execSequenceTimerExpiry
  rw [h]
  exact if_pos (by simp [SequenceTimer.awaitsReplaced, hlate])

section own
variable {timer : SequenceTimer} (h : s.gates.timer = some timer)
  (hlate : ¬ (timer.superseded = true ∧ timer.start = s.time)) (hdue : (timer.dueAt - s.time).toNat < 2 ^ 31)
include h hlate hdue

theorem expiry_of_rising (hst : s.gates.print.state = .rising) : exec .sequenceTimerExpiry s =
    .next ((State.printOn { s with time := timer.dueAt }).judgeIfConfirmed s) := by
  change execSequenceTimerExpiry s = _
  unfold execSequenceTimerExpiry
  rw [h]
  dsimp only
  rw [if_neg (by simpa [SequenceTimer.awaitsReplaced] using hlate), reachTime_of_future hdue, hst]

theorem expiry_of_falling (hst : s.gates.print.state = .falling) : exec .sequenceTimerExpiry s =
    .next (State.setPrint { s with time := timer.dueAt } .off none).completeDoze := by
  change execSequenceTimerExpiry s = _
  unfold execSequenceTimerExpiry
  rw [h]
  dsimp only
  rw [if_neg (by simpa [SequenceTimer.awaitsReplaced] using hlate), reachTime_of_future hdue, hst]

end own

theorem State.judgeIfConfirmed_of_confirmed {before : State} (h : before.control.bootConfirmed = true) :
    s.judgeIfConfirmed before = s := by
  unfold judgeIfConfirmed
  rw [if_neg (by simp [h])]

theorem State.judgeIfConfirmed_of_first {before : State} (h : before.control.bootConfirmed = false)
    (hs : s.control.bootConfirmed = true) : s.judgeIfConfirmed before = s.judge := by
  unfold judgeIfConfirmed
  rw [if_pos (by simp [h, hs])]

theorem State.completeDoze_of_not_entering (h : s.power.state ≠ .enteringDoze) : s.completeDoze = s :=
  if_neg fun hall => h hall.1

theorem State.completeDoze_of_off (h : s.power.state = .enteringDoze ∧ s.gates.print.state = .off ∧
    s.gates.scan.state = .off) : s.completeDoze = { s with
      power := { s.power with state := .doze, fpwr := false }
      port0 := { s.port0 with owner := .nobody, select := false, tracked := .three }
      port1 := { s.port1 with owner := .nobody, select := false, tracked := .three }
      transaction := none } := if_pos h

/-- Settles O38: the expiry of a replaced timer, then of the timer itself by the state of the print gate. -/
theorem sequenceTimerMovesThePrintGate : Obligations.SequenceTimerMovesThePrintGate := by
  intro s start n late h
  refine ⟨fun hlate => expiry_of_replaced h hlate, ?_⟩
  intro hlate hdue due moved
  refine ⟨fun hst hboot => ?_, fun hst hboot => ?_, fun hst hpower => ?_, fun hst hpower hscan => ?_⟩
  · rw [expiry_of_rising h hlate hdue hst, State.judgeIfConfirmed_of_confirmed hboot, State.printOn,
      State.confirmBoot_of_confirmed (by exact hboot)]
    rfl
  · rw [expiry_of_rising h hlate hdue hst, State.printOn, State.confirmBoot_of_first (by exact hboot),
      State.judgeIfConfirmed_of_first hboot rfl]
    rfl
  · rw [expiry_of_falling h hlate hdue hst, State.completeDoze_of_not_entering (by exact hpower)]
    rfl
  · rw [expiry_of_falling h hlate hdue hst, State.completeDoze_of_off (by exact ⟨hpower, rfl, hscan⟩)]
    rfl

/-! ### The deadline and the tamper input (R153 to R156) -/

theorem tamperSample_of_future (hrst : s.lines.rst = false) (hdue : (s.gates.sampledAt + 1000 - s.time).toNat < 2 ^ 31)
    (high : Bool) : exec (.tamperSample high) s =
      let u : State := { s with
        time := s.gates.sampledAt + 1000
        gates := { s.gates.sample high with sampledAt := s.gates.sampledAt + 1000 } }
      .next (if (s.gates.sample high).tamper && !s.gates.tamper then u.filteredAssertion else u) := by
  change execTamperSample high s = _
  unfold execTamperSample
  rw [if_neg (by simp [hrst])]
  dsimp only
  rw [show after s.gates.sampledAt 1000 = s.gates.sampledAt + 1000 from rfl, reachTime_of_future hdue]

/-- Settles O39: the deadline's expiry, then each outcome of a tamper sample. -/
theorem deadlineAndTamperPushAndTrip : Obligations.DeadlineAndTamperPushAndTrip := by
  intro high s
  refine ⟨fun h => ?_, fun h hrun hdue => ?_, fun hrst hdue => ?_⟩
  · change execDeadlineExpiry s = _
    exact if_neg h
  · change execDeadlineExpiry s = _
    unfold execDeadlineExpiry
    rw [if_pos h]
    dsimp only
    rw [reachTime_of_future hdue, State.pushFault_of_not_halted (by simp [hrun])]
    simp only [hrun]
    rfl
  · intro due sampled
    have hexec := tamperSample_of_future hrst hdue high
    refine ⟨fun hsame => ?_, fun hnew hcount => ?_, fun hnew hcount hquiet => ?_, fun hlow hcount hhigh hawake => ?_⟩
    · have hsample : s.gates.sample high = { s.gates with tamperRun := 0 } := if_pos hsame
      rw [hexec, hsample]
      simp [sampled, due]
    · have hsample : s.gates.sample high = { s.gates with tamperRun := s.gates.tamperRun + 1 } :=
        (if_neg hnew).trans (if_pos hcount)
      rw [hexec, hsample]
      simp [sampled, due]
    · have hsample : s.gates.sample high = { s.gates with tamper := high, tamperRun := 0 } :=
        (if_neg hnew).trans (if_neg (by omega))
      rw [hexec, hsample]
      rcases hquiet with rfl | hhalted
      · rfl
      · have hnothing : (sampled high 0).filteredAssertion = sampled high 0 := if_pos hhalted
        dsimp only
        split
        · exact congrArg Host.Outcome.next hnothing
        · rfl
    · have hsample : s.gates.sample high = { s.gates with tamper := high, tamperRun := 0 } :=
        (if_neg (by simp [hlow, hhigh])).trans (if_neg (by omega))
      have hassert : (sampled true 0).filteredAssertion =
          (((sampled true 0).pushFault .tamper none none none 0).raise .tamper).settleGates := if_neg hawake
      rw [hexec, hsample, hhigh]
      dsimp only
      rw [if_pos (by simp [hlow])]
      rw [State.pushFault_of_not_halted (by exact hawake)] at hassert
      exact congrArg Host.Outcome.next hassert

/-! ### The alert line (R167, R168) -/

/-- Settles O40: `Alert.push` in each mode, then the two timed events. -/
theorem alertLineLevelAndPulses : Obligations.AlertLineLevelAndPulses := by
  intro s a now start
  refine ⟨rfl, fun h => ?_, fun h => ?_, fun hdue => ⟨fun h => ?_, fun h hnone => ?_, fun h hsome => ?_⟩⟩
  · exact if_pos h
  · exact if_neg h
  · change execAlertPulseEnd s = _
    unfold execAlertPulseEnd
    rw [h]
    dsimp only
    rw [show after start 2 = start + 2 from rfl, reachTime_of_future hdue]
  · change execAlertGapEnd s = _
    unfold execAlertGapEnd
    rw [h]
    dsimp only
    rw [show after start 2 = start + 2 from rfl, reachTime_of_future hdue, if_neg (by simp [hnone])]
  · change execAlertGapEnd s = _
    unfold execAlertGapEnd
    rw [h]
    dsimp only
    rw [show after start 2 = start + 2 from rfl, reachTime_of_future hdue, if_pos hsome]
    rfl

end Sys2Proof.Machine
end

section
/-!
Requests that move the gates or the engine: REARM, FORCE_OFF, SETTINGS, LOCK, FILL_MASK and TIME (chapter 10). The
request channel is part of the open transaction, which neither the gates nor the engine read.
-/
namespace Sys2Proof.Machine
variable {s t : State}

namespace State

/-! ### The gates and the engine do not read the open transaction -/

theorem confirmBoot_transaction (s : State) (x : Option Transaction) :
    State.confirmBoot { s with transaction := x } = { s.confirmBoot with transaction := x } := by
  cases h : s.control.bootConfirmed with
  | true => rw [confirmBoot_of_confirmed h, confirmBoot_of_confirmed (by exact h)]
  | false =>
    rw [confirmBoot_of_first h, confirmBoot_of_first (by exact h)]

theorem printOn_transaction (s : State) (x : Option Transaction) :
    State.printOn { s with transaction := x } = { s.printOn with transaction := x } :=
  confirmBoot_transaction (s.setPrint .on none) x

theorem printRising_transaction (s : State) (x : Option Transaction) :
    State.printRising { s with transaction := x } = { s.printRising with transaction := x } := by
  unfold printRising
  by_cases h : s.settings.interval = 0
  · rw [if_pos h, if_pos (by exact h), printOn_transaction]
  · rw [if_neg h, if_neg (by exact h)]
    rfl

theorem printFalling_transaction (s : State) (x : Option Transaction) :
    State.printFalling { s with transaction := x } = { s.printFalling with transaction := x } := by
  unfold printFalling
  by_cases h : s.settings.interval = 0
  · rw [if_pos h, if_pos (by exact h)]
    rfl
  · rw [if_neg h, if_neg (by exact h)]
    rfl

theorem settlePrint_transaction (s : State) (x : Option Transaction) :
    State.settlePrint { s with transaction := x } = { s.settlePrint with transaction := x } := by
  unfold settlePrint
  rw [show State.gateGood { s with transaction := x } s.gates.print = s.gateGood s.gates.print from rfl]
  dsimp only
  split
  case h_1 | h_2 => exact printRising_transaction s x
  case h_3 | h_4 => exact printFalling_transaction s x
  all_goals rfl

theorem settleGates_transaction (s : State) (x : Option Transaction) :
    State.settleGates { s with transaction := x } = { s.settleGates with transaction := x } := by
  rw [settleGates_eq, settleGates_eq, settlePrint_transaction]
  rfl

theorem startRead_transaction (s : State) (x : Option Transaction) (j : Job) (r : FetchRead) :
    State.startRead { s with transaction := x } j r = { s.startRead j r with transaction := x } := by
  obtain ⟨p, _, _, _, _, _, _, _, _, _⟩ := r
  cases p <;> rfl

theorem startFill_transaction (s : State) (x : Option Transaction) (g : Nat) :
    State.startFill { s with transaction := x } g = { s.startFill g with transaction := x } := by
  cases h : s.pool.freeSlot with
  | none =>
    unfold startFill
    rw [h]
  | some i =>
    rw [startFill_eq h, startFill_eq (by exact h)]
    exact startRead_transaction
      (((s.setSlot i (some (freshContext g .verify .fetch s.time))).setSegState g .hashing).purgeGap g) x _ _

theorem startPatrol_transaction (s : State) (x : Option Transaction) (g : Nat) :
    State.startPatrol { s with transaction := x } g = { s.startPatrol g with transaction := x } := by
  cases h : s.pool.freeSlot with
  | none =>
    unfold startPatrol
    rw [h]
  | some i =>
    rw [startPatrol_eq h, startPatrol_eq (by exact h)]
    exact startRead_transaction { (s.setSlot i (some (freshContext g .patrol .fetch s.time))).startPatrolTimer with
      engine := { (s.setSlot i (some (freshContext g .patrol .fetch s.time))).startPatrolTimer.engine with
        cursor := if g = 2047 then 0 else g + 1 } } x _ _

theorem resume_transaction (s : State) (x : Option Transaction) (i : Nat) :
    State.resume { s with transaction := x } i = { s.resume i with transaction := x } := by
  cases hc : s.pool.context i with
  | none =>
    unfold resume
    rw [hc]
  | some c =>
    cases hrole : c.role with
    | verify =>
      rw [resume_verify hc hrole, resume_verify (by exact hc) hrole]
      exact startRead_transaction ((s.setSlot i (some { c with source := .fetch })).purgeGap c.seg) x _ _
    | patrol =>
      rw [resume_patrol hc hrole, resume_patrol (by exact hc) hrole]
      exact startRead_transaction (s.setSlot i (some { c with source := .fetch })) x _ _

theorem freePatrol_transaction (s : State) (x : Option Transaction) (i : Nat) :
    State.freePatrol { s with transaction := x } i = { s.freePatrol i with transaction := x } := by
  unfold freePatrol
  dsimp only
  cases s.pool.context i <;> rfl

theorem judgeWith_transaction (n : Nat) (s : State) (x : Option Transaction) :
    State.judgeWith n { s with transaction := x } = { State.judgeWith n s with transaction := x } := by
  induction n generalizing s with
  | zero => rfl
  | succ n ih =>
    unfold judgeWith
    rw [show State.engineFree { s with transaction := x } = s.engineFree from rfl,
      show State.candidate { s with transaction := x } = s.candidate from rfl]
    split
    · cases s.candidate with
      | fill g => exact startFill_transaction s x g
      | resumeFill i => exact resume_transaction s x i
      | resumePatrol i => exact resume_transaction s x i
      | freePatrol i =>
        dsimp only
        rw [freePatrol_transaction, ih]
      | startPatrol g => exact startPatrol_transaction s x g
      | nothing => rfl
    · rfl

theorem judge_transaction (s : State) (x : Option Transaction) :
    State.judge { s with transaction := x } = { s.judge with transaction := x } := judgeWith_transaction 2 s x

/-! ### The answer to a request that does something first -/

/-- The answer of a request whose effect leaves the open transaction alone (R171, R172). -/
theorem reply_after (f : State → State)
    (hf : ∀ (s : State) (x : Option Transaction), f { s with transaction := x } = { f s with transaction := x })
    (s : State) (tag code : Byte) (st : Status) (data : List Byte) :
    (f (s.setChannel .done)).reply tag code st data = (f s).answered tag code st data := by
  have hkeep : (f s).transaction = s.transaction := by
    rw [show f s = { f s with transaction := s.transaction } from hf s s.transaction]
  have hdone : f (s.setChannel .done) = (f s).setChannel .done := by
    unfold setChannel
    rw [hf, hkeep]
  rw [hdone]
  rfl

/-! ### Gates that are settled -/

theorem settleGates_of_settled (hs : s.settled) (hlines : s.linesFollow) : s.settleGates = s := by
  obtain ⟨hprint, hscan, hrest⟩ := hs
  obtain ⟨-, -, hscnen⟩ := hlines
  have hplace : s.settlePrint = s := by
    apply settlePrint_of_rest
    cases hgood : s.gateGood s.gates.print with
    | true => exact .inl ⟨rfl, hprint.1 hgood⟩
    | false =>
      have hdown := mt hprint.2 (by simp [hgood])
      exact .inr ⟨rfl, by cases hst : s.gates.print.state <;> simp [hst] at hdown ⊢⟩
  have hstate : (if s.gateGood s.gates.scan = true then GateState.on else .off) = s.gates.scan.state := by
    split
    next hgood => exact (hscan.1 hgood).symm
    next hbad => exact (hrest.resolve_right (mt hscan.2 hbad)).symm
  rw [settleGates_eq, hplace, hstate]
  unfold setScan
  rw [← hscnen]

/-- Settling gates confirm the boot or leave it as it was (R144). -/
theorem settleGates_confirmed_of_ne (h : s.settleGates.control.bootConfirmed ≠ s.control.bootConfirmed) :
    s.control.bootConfirmed = false ∧ s.settleGates.control.bootConfirmed = true := by
  cases hboot : s.control.bootConfirmed with
  | true =>
    refine absurd ?_ h
    rw [settleGates_eq, setScan_control, (settlePrint_kept (.inr (.inr (.inr (.inr hboot))))).1]
  | false =>
    rw [hboot] at h
    exact ⟨rfl, by simpa using h⟩

end State

/-! ### REARM and FORCE_OFF -/

theorem State.anySelectedLatch_iff {gates : Byte} : s.anySelectedLatch gates = true ↔
    (gates.getLsbD 0 = true ∧ s.gates.print.latch = true) ∨ (gates.getLsbD 1 = true ∧ s.gates.scan.latch = true) := by
  simp only [anySelectedLatch, Bool.or_eq_true, Bool.and_eq_true]
  exact Iff.rfl

/-- The gates settle with latches cleared, and the engine judges where that confirms the boot (R150, R121). -/
def State.rearmed (print scan : Bool) (s : State) : State :=
  (s.clearLatches print scan).settleGates.judgeIfConfirmed s

theorem State.rearmed_transaction (print scan : Bool) (s : State) (x : Option Transaction) :
    State.rearmed print scan { s with transaction := x } = { s.rearmed print scan with transaction := x } := by
  unfold rearmed
  rw [show State.clearLatches { s with transaction := x } print scan =
    { s.clearLatches print scan with transaction := x } from rfl, settleGates_transaction]
  unfold judgeIfConfirmed
  dsimp only
  split
  · exact judge_transaction _ x
  · rfl

theorem State.rearmed_eq (print scan : Bool) (s : State) : s.rearmed print scan =
    if (s.clearLatches print scan).settleGates.control.bootConfirmed = s.control.bootConfirmed then
      (s.clearLatches print scan).settleGates
    else (s.clearLatches print scan).settleGates.judge := by
  unfold rearmed
  split
  next hsame =>
    unfold judgeIfConfirmed
    rw [if_neg (by rw [hsame]; simp)]
  next hnew =>
    obtain ⟨hbefore, hafter⟩ := State.settleGates_confirmed_of_ne (s := s.clearLatches print scan) hnew
    exact State.judgeIfConfirmed_of_first hbefore hafter

/-- The gates settle with latches set (R151). -/
def State.forcedOff (print scan : Bool) (s : State) : State := (s.latchGates print scan).settleGates

theorem State.forcedOff_transaction (print scan : Bool) (s : State) (x : Option Transaction) :
    State.forcedOff print scan { s with transaction := x } = { s.forcedOff print scan with transaction := x } :=
  settleGates_transaction (s.latchGates print scan) x

theorem State.latchGates_none (s : State) : s.latchGates false false = s := by
  unfold latchGates
  simp only [Bool.or_false]

/-- Settles O47: the latches, then the gates. -/
theorem rearmAndForceOffActOnTheLatches : Obligations.RearmAndForceOffActOnTheLatches := by
  intro tag gates s p q latched
  refine ⟨fun h => ?_, fun h => ?_⟩
  · have htaken : exec (.rearm tag gates) s = .next ((s.setChannel .done).takeRearm tag gates) :=
      congrArg Host.Outcome.next (State.request_of_awaits h rfl _)
    rw [htaken]
    unfold State.takeRearm
    refine ⟨fun hp hq => ?_, ?_⟩
    · rw [if_neg]
      · rfl
      · refine mt State.anySelectedLatch_iff.1 (not_or.2 ⟨fun hl => ?_, fun hl => ?_⟩)
        · have hclear := hp hl.1
          rw [show s.gates.print.latch = true from hl.2] at hclear
          cases hclear
        · have hclear := hq hl.1
          rw [show s.gates.scan.latch = true from hl.2] at hclear
          cases hclear
    · intro hany t
      have hanswer := State.reply_after (State.rearmed p q) (State.rearmed_transaction p q) s tag 5 .ok []
      rw [State.rearmed_eq p q s] at hanswer
      have hselected : (s.setChannel .done).anySelectedLatch gates = true := State.anySelectedLatch_iff.2 hany
      rw [if_pos hselected]
      exact congrArg Host.Outcome.next hanswer
  · have htaken : exec (.forceOff tag gates) s = .next ((s.setChannel .done).takeForceOff tag gates) :=
      congrArg Host.Outcome.next (State.request_of_awaits h rfl _)
    have hanswer : (s.setChannel .done).takeForceOff tag gates = (s.forcedOff p q).answered tag 6 .ok [] :=
      State.reply_after (State.forcedOff p q) (State.forcedOff_transaction p q) s tag 6 .ok []
    rw [htaken, hanswer]
    refine ⟨rfl, fun hsettled hlines hp hq => ?_⟩
    unfold State.forcedOff
    rw [hp, hq, State.latchGates_none, State.settleGates_of_settled hsettled hlines]

/-! ### SETTINGS, LOCK, FILL_MASK and TIME -/

/-- The alert line after a change of its mode, mode by mode (R169). -/
theorem changeMode_eq (a : Alert) (old new : AlertMode) (faults : List FaultRecord) (now : Time) :
    a.changeMode old new faults.length now =
      if old = new then a
      else if new = .level then { asserted := decide (faults ≠ []), pendingPulses := 0, timing := .idle }
      else if faults = [] then { a with asserted := false }
      else { asserted := false, pendingPulses := 1, timing := .gap now } := by
  cases old <;> cases new <;> cases faults <;> rfl

theorem nibble_eq_and (b : Byte) : BitVec.ofNat 8 (b.setWidth 4).toNat = b &&& 0x0F := by
  apply BitVec.eq_of_toNat_eq
  have hmask : b.toNat &&& 15 = b.toNat % 16 := Nat.and_two_pow_sub_one_eq_mod b.toNat 4
  rw [BitVec.toNat_ofNat, BitVec.toNat_setWidth, BitVec.toNat_and]
  change b.toNat % 16 % 256 = b.toNat &&& 15
  omega

/-- The bytes that echo the settings (R180). -/
theorem Settings.echo_eq (x : Settings) : x.echo =
    [BitVec.ofNat 8 x.holdoff, BitVec.ofNat 8 (x.holdoff / 256), BitVec.ofNat 8 x.patrol, BitVec.ofNat 8 (x.patrol / 256),
      BitVec.ofNat 8 x.alertMode.code, BitVec.ofNat 8 x.printSet.toNat, BitVec.ofNat 8 x.scanSet.toNat,
      BitVec.ofNat 8 x.interval] := by
  simp [Settings.echo, leBytes_one, leBytes_two]

/-- The four bytes of the timebase (R181). -/
theorem leBytes_time (now : Time) : leBytes 4 now.toNat =
    [now.setWidth 8, (now >>> 8).setWidth 8, (now >>> 16).setWidth 8, (now >>> 24).setWidth 8] := by
  have hbyte : ∀ k, BitVec.ofNat 8 (now.toNat / 2 ^ k) = (now >>> k).setWidth 8 := fun k => by
    apply BitVec.eq_of_toNat_eq
    rw [BitVec.toNat_ofNat, BitVec.toNat_setWidth, BitVec.toNat_ushiftRight, Nat.shiftRight_eq_div_pow]
  have h0 : BitVec.ofNat 8 now.toNat = now.setWidth 8 := by
    apply BitVec.eq_of_toNat_eq
    rw [BitVec.toNat_ofNat, BitVec.toNat_setWidth]
  have h1 : BitVec.ofNat 8 (now.toNat / 256) = (now >>> 8).setWidth 8 := hbyte 8
  have h2 : BitVec.ofNat 8 (now.toNat / 65536) = (now >>> 16).setWidth 8 := hbyte 16
  have h3 : BitVec.ofNat 8 (now.toNat / 16777216) = (now >>> 24).setWidth 8 := hbyte 24
  rw [leBytes_four, h0, h1, h2, h3]

/-- Settles O48, request by request. -/
theorem settingsLockFillMaskAndTime : Obligations.SettingsLockFillMaskAndTime := by
  intro tag h0 h1 p0 p1 mode print scan interval s h n hold patrol new
  have hcarried : s.settings.carried h0 h1 p0 p1 mode print scan interval = new := by
    unfold Settings.carried
    simp only [leNat, Nat.mul_zero, Nat.add_zero]
    rfl
  refine ⟨fun hawaits => ?_, fun hawaits => ?_, fun hawaits => ?_, fun hawaits => ?_⟩
  · have htaken : exec (.settings tag h0 h1 p0 p1 mode print scan interval) s =
        .next ((s.setChannel .done).takeSettings tag new) := by
      rw [← hcarried]
      exact congrArg Host.Outcome.next (State.request_of_awaits hawaits rfl _)
    rw [htaken]
    unfold State.takeSettings
    refine ⟨fun hlock => ?_, fun hlock => ?_⟩
    · rw [if_pos (by exact hlock)]
      rfl
    · rw [if_neg (by change ¬ s.lock = true; simp [hlock]), Settings.echo_eq]
      have hmode : BitVec.ofNat 8 new.alertMode.code = if mode = 0 then 0 else 1 := by
        dsimp only [new]
        split <;> rfl
      have hprint : BitVec.ofNat 8 new.printSet.toNat = print &&& 0x0F := nibble_eq_and print
      have hscan : BitVec.ofNat 8 new.scanSet.toNat = scan &&& 0x0F := nibble_eq_and scan
      have hinterval : BitVec.ofNat 8 new.interval = interval := BitVec.ofNat_toNat ..
      rw [hmode, hprint, hscan, hinterval, ← changeMode_eq]
      exact congrArg Host.Outcome.next (State.reply_after (fun s => (s.putSettings new).judge)
        (fun s x => State.judge_transaction (s.putSettings new) x) s tag 7 .ok _)
  · exact congrArg Host.Outcome.next (State.request_of_awaits hawaits rfl _)
  · have htaken : exec (.fillMask tag h0 h1) s = .next ((s.setChannel .done).takeFillMask tag h0 h1) :=
      congrArg Host.Outcome.next (State.request_of_awaits hawaits rfl _)
    rw [htaken]
    exact congrArg Host.Outcome.next (State.reply_after
      (fun s => State.judge { s with engine := { s.engine with fillMask := h1 ++ h0 } })
      (fun s x => State.judge_transaction { s with engine := { s.engine with fillMask := h1 ++ h0 } } x) s tag 9 .ok [])
  · have htaken : exec (.time tag) s = .next (s.answered tag 10 .ok (leBytes 4 s.time.toNat)) :=
      congrArg Host.Outcome.next (State.request_of_awaits hawaits rfl _)
    rw [htaken, leBytes_time]

end Sys2Proof.Machine
end

section
/-!
Doze entry (R182, R185, R186): what the discard leaves, then the gates as they fall with the power state no longer
ACTIVE.
-/
namespace Sys2Proof.Machine
variable {s : State}

namespace State

/-! ### Entry to ENTERING_DOZE -/

/-- A port after the read in progress, if it runs there, is aborted (R129). -/
def abortedPort (s : State) (p : Port) : PortState :=
  if s.engine.read.map (·.port) = some p then { s.port p with owner := .nobody, select := false } else s.port p

theorem closeRead_eq (s : State) : s.closeRead = { s with
    port0 := s.abortedPort .p0, port1 := s.abortedPort .p1
    engine := { s.engine with read := none } } := by
  unfold closeRead abortedPort
  cases h : s.engine.read with
  | none =>
    have hsame : ({ s.engine with read := none } : Engine) = s.engine := by rw [← h]
    rw [hsame]
    rfl
  | some r =>
    obtain ⟨p, _, _, _, _, _, _, _, _, _⟩ := r
    cases p <;> rfl

theorem endRead_eq (s : State) : s.endRead = { s with
    port0 := s.abortedPort .p0, port1 := s.abortedPort .p1
    engine := { s.engine with job := .idle, read := none } } := by
  unfold endRead
  rw [closeRead_eq]

/-- The state with its read aborted and its contexts discarded, before its gates fall (R185). -/
def discarded (s : State) : State :=
  { s with
    port0 := s.abortedPort .p0, port1 := s.abortedPort .p1
    gates := { s.gates with deadline := .disarmed }
    power := { s.power with state := .enteringDoze }
    segments := discardedSegments s.segments s.pool
    engine := { s.engine with job := .idle, read := none, cursor := cursorAfterDiscard s.pool s.engine.cursor }
    pool := Pool.afterReset }

theorem enterDoze_eq (s : State) : s.enterDoze = s.discarded.settleGates.completeDoze := by
  unfold enterDoze
  rw [endRead_eq]
  rfl

theorem segState_discarded (hs : s.poolLaw) (g : Nat) : s.discarded.segState g =
    if s.segState g = some .hashing then some .unseen else s.segState g := segState_discardedSegments hs g

/-- The cursor goes back to the segment of the PATROL context (R134). -/
theorem cursorAfterDiscard_of_patrol (hs : s.poolLaw) {i : Nat} {c : Context} (hc : s.pool.context i = some c)
    (hrole : c.role = .patrol) (cursor : Nat) : cursorAfterDiscard s.pool cursor = c.seg := by
  obtain ⟨-, hunique, -⟩ := hs
  obtain ⟨j, hj⟩ := Pool.patrolSlot_isSome hc hrole
  obtain ⟨d, hd, hdrole⟩ := Pool.patrolSlot_some hj
  obtain rfl := hunique i j c d hc hd (.inr ⟨hrole, hdrole⟩)
  rw [hc, Option.some.injEq] at hd
  unfold cursorAfterDiscard
  rw [hj, Option.bind_some, hc]

theorem cursorAfterDiscard_of_none {p : Pool} (h : ∀ i c, p.context i = some c → c.role = .verify) (cursor : Nat) :
    cursorAfterDiscard p cursor = cursor := by
  unfold cursorAfterDiscard
  rw [Pool.patrolSlot_none h, Option.bind_none]

/-! ### The gates fall -/

theorem gateGood_of_asleep (h : s.power.state ≠ .active) (g : Gate) : s.gateGood g = false :=
  Bool.eq_false_iff.2 fun hgood => h (gateGood_iff_condition.1 hgood).2.1

/-- A scan gate that turns OFF beside a print gate that rests (R142). -/
theorem setScan_of_rest {st : GateState} {timer : Option SequenceTimer} (hlines : s.linesFollow)
    (hst : s.gates.print.state = st) (htimer : s.gates.timer = timer) : s.setScan .off = { s with
      gates := { s.gates with
        print := { s.gates.print with state := st }, scan := { s.gates.scan with state := .off }, timer := timer }
      lines := { s.lines with epwr := st.powers, earm := st.arms, scnen := false } } := by
  obtain ⟨hepwr, hearm, -⟩ := hlines
  subst hst htimer
  rw [← hepwr, ← hearm]
  rfl

/-- A print gate that is FALLING, or that falls for an interval (R140). -/
theorem settleGates_of_falls (hpower : s.power.state ≠ .active) (hlines : s.linesFollow)
    (hfalls : s.gates.print.state = .falling ∨
      ((s.gates.print.state = .rising ∨ s.gates.print.state = .on) ∧ s.settings.interval ≠ 0)) :
    s.settleGates = { s with
      gates := { s.gates with
        print := { s.gates.print with state := .falling }, scan := { s.gates.scan with state := .off }
        timer := if s.gates.print.state = .falling then s.gates.timer else some s.sequenceStart }
      lines := { s.lines with epwr := true, earm := false, scnen := false } } := by
  have hbad := gateGood_of_asleep hpower
  rw [settleGates_eq, hbad, if_neg (by decide)]
  rcases hfalls with h | ⟨hup, hn⟩
  · rw [settlePrint_of_rest (.inr ⟨hbad _, .inr h⟩), if_pos h]
    exact setScan_of_rest hlines h rfl
  · rw [settlePrint_of_fall (hbad _) hup, if_neg hn, if_neg (by rcases hup with h | h <;> rw [h] <;> decide)]
    rfl

/-- A print gate that is OFF, or that falls to OFF at once (R140, R142). -/
theorem settleGates_of_rests (hpower : s.power.state ≠ .active) (hlines : s.linesFollow) (htimer : s.timerFollows)
    (hrests : ¬ (s.gates.print.state = .falling ∨
      ((s.gates.print.state = .rising ∨ s.gates.print.state = .on) ∧ s.settings.interval ≠ 0))) :
    s.settleGates = { s with
      gates := { s.gates with
        print := { s.gates.print with state := .off }, scan := { s.gates.scan with state := .off }, timer := none }
      lines := { s.lines with epwr := false, earm := false, scnen := false } } := by
  have hbad := gateGood_of_asleep hpower
  rw [settleGates_eq, hbad, if_neg (by decide)]
  by_cases hup : s.gates.print.state = .rising ∨ s.gates.print.state = .on
  · rw [settlePrint_of_fall (hbad _) hup, if_pos (Classical.byContradiction fun hn => hrests (.inr ⟨hup, hn⟩))]
    rfl
  · have hoff : s.gates.print.state = .off := by
      cases h : s.gates.print.state with
      | off => rfl
      | rising => exact absurd (.inl h) hup
      | on => exact absurd (.inr h) hup
      | falling => exact absurd (.inl h) hrests
    have hnone : s.gates.timer = none := by
      cases h : s.gates.timer with
      | none => rfl
      | some t => simpa [h, hoff] using htimer.1
    rw [settlePrint_of_rest (.inr ⟨hbad _, .inl hoff⟩)]
    exact setScan_of_rest hlines hoff hnone

theorem completeDoze_of_print_up (h : s.gates.print.state ≠ .off) : s.completeDoze = s :=
  if_neg fun hall => h hall.2.1

/-- A port aborted or not is idle alike after doze entry (R186). -/
theorem abortedPort_idle (s : State) (p : Port) :
    ({ s.abortedPort p with owner := .nobody, select := false, tracked := .three } : PortState) =
      { s.port p with owner := .nobody, select := false, tracked := .three } := by
  unfold abortedPort
  split <;> rfl

end State

/-- Settles O49: the discard, then the entry that waits for the print gate and the one that completes. -/
theorem dozeStartsDozeEntry : Obligations.DozeStartsDozeEntry := by
  intro tag s h
  have htaken : exec (.doze tag) s = .next ((s.setChannel .done).takeDoze tag) :=
    congrArg Host.Outcome.next (State.request_of_awaits h rfl _)
  rw [htaken]
  refine ⟨fun hpower => ?_, ?_⟩
  · exact congrArg Host.Outcome.next (if_neg (by change ¬ s.power.state = .active; rw [hpower]; decide))
  · intro hpower hpool hgate print falls late aborted
    obtain ⟨hlines, htimer, -⟩ := hgate
    have henter : (s.setChannel .done).takeDoze tag =
        (s.answered tag 11 .ok []).discarded.settleGates.completeDoze :=
      (if_pos hpower).trans (State.enterDoze_eq _)
    have hasleep : (s.answered tag 11 .ok []).discarded.power.state ≠ .active := by
      change PowerState.enteringDoze ≠ .active
      decide
    rw [henter]
    by_cases hfalls : falls
    · rw [State.settleGates_of_falls hasleep hlines hfalls, State.completeDoze_of_print_up (by exact GateState.noConfusion)]
      refine ⟨_, rfl, rfl, State.segState_discarded hpool, rfl,
        fun i c hc hrole => State.cursorAfterDiscard_of_patrol hpool hc hrole _,
        fun hall => State.cursorAfterDiscard_of_none hall _, ?_, fun hst => if_pos hst, fun _ hst => ?_,
        fun _ => ⟨rfl, rfl, rfl, rfl, rfl⟩, fun hno => absurd hfalls hno⟩
      · rw [if_pos hfalls]
        rfl
      · exact (if_neg hst).trans (congrArg some (State.sequenceStart_eq _))
    · rw [State.settleGates_of_rests hasleep hlines htimer hfalls, State.completeDoze_of_off ⟨rfl, rfl, rfl⟩]
      refine ⟨_, rfl, rfl, State.segState_discarded hpool, rfl,
        fun i c hc hrole => State.cursorAfterDiscard_of_patrol hpool hc hrole _,
        fun hall => State.cursorAfterDiscard_of_none hall _, ?_, fun hst => absurd (.inl hst) hfalls,
        fun hyes => absurd hyes hfalls, fun hyes => absurd hyes hfalls, fun _ => ⟨rfl, rfl, rfl, rfl, ?_, ?_⟩⟩
      · rw [if_neg hfalls]
        rfl
      · exact State.abortedPort_idle s .p0
      · exact State.abortedPort_idle s .p1

end Sys2Proof.Machine
end

section
/-!
Entry to RECOVERY (R66), the wake reads (R136) and the wake check (R188 to R190).
-/
namespace Sys2Proof.Machine
variable {s : State}

namespace State

/-! ### Entry to RECOVERY -/

/-- The part in RECOVERY, with these ports (R66, R67). -/
def recovered (s : State) (a b : PortState) : State :=
  { s with
    control := { s.control with
      phase := .recovery, step := .done, pending0 := none, pending1 := none, candidates := []
      context := none, differences := zeroDifferences, manifest := none }
    classTable := [], regions := [], segments := [], pool := Pool.afterReset, settings := Settings.afterReset
    alert := s.alert.changeMode s.settings.alertMode .level s.faults.length s.time
    engine := { s.engine with
      job := .idle, read := none, timer := { s.engine.timer with start := none }, due := false
      wake0 := none, wake1 := none }
    gates := { s.gates with
      print := ⟨.off, s.gates.print.latch, 0⟩, scan := ⟨.off, s.gates.scan.latch, 0⟩, timer := none
      deadline := .disarmed }
    lines := { s.lines with crst := false, epwr := false, earm := false, scnen := false }
    port0 := a, port1 := b }

theorem enterRecovery_of_hold (h : s.control.phase = .hold) :
    s.enterRecovery = s.recovered s.port0.released s.port1.released := if_pos h

theorem enterRecovery_of_not_hold (h : s.control.phase ≠ .hold) : s.enterRecovery = s.recovered s.port0 s.port1 :=
  if_neg h

/-- With a record on the stack the line is asserted at the change to LEVEL mode (R169). -/
theorem changeMode_after_push (a : Alert) (mode : AlertMode) (stack : List FaultRecord) (r : FaultRecord)
    (pushed now : Time) :
    ((a.push mode pushed).changeMode mode .level (pushRecord stack r).length now).asserted = true := by
  cases mode with
  | level => rfl
  | pulse => simp [Alert.changeMode, pushRecord]

/-! ### The settle timer and the wake reads -/

theorem settleExpiry_of_recovery {start : Time} (h : s.power.settle = some start)
    (hdue : (start + 1000 - s.time).toNat < 2 ^ 31) (hphase : s.control.phase = .recovery) :
    exec .settleTimerExpiry s = .next (State.becomeActive { s with time := start + 1000 }) := by
  change execSettleTimerExpiry s = _
  unfold execSettleTimerExpiry
  rw [h]
  dsimp only
  rw [hphase, show settleDue start = start + 1000 from rfl, reachTime_of_future hdue]

theorem settleExpiry_of_run {start : Time} (h : s.power.settle = some start)
    (hdue : (start + 1000 - s.time).toNat < 2 ^ 31) (hphase : s.control.phase = .run) :
    exec .settleTimerExpiry s = .next (State.startRead { s with
        time := start + 1000
        power := { s.power with settle := none }
        engine := { s.engine with wake0 := none, wake1 := none } }
      .wake (identityRead .p0 .wakeIdentity)) := by
  change execSettleTimerExpiry s = _
  unfold execSettleTimerExpiry
  rw [h]
  dsimp only
  rw [hphase, show settleDue start = start + 1000 from rfl, reachTime_of_future hdue]

theorem closeWakeRead_of_read {r : FetchRead} (h : s.engine.read = some r) : s.closeWakeRead =
    { s.setPort r.port (s.port r.port).afterWakeRead with engine := { s.engine with read := none } } := by
  unfold closeWakeRead
  rw [h]

theorem wakeIdentityEnd_of_p0 {r : FetchRead} {b0 b1 b2 : Byte} (h : s.engine.read = some r)
    (hkind : r.kind = .wakeIdentity) (hport : r.port = .p0) : exec (.wakeIdentityReadEnd b0 b1 b2) s =
      .next (State.startRead
        { s.closeWakeRead with engine := { s.closeWakeRead.engine with wake0 := some ⟨b0, b1, b2⟩ } } .wake
        (identityRead .p1 .wakeIdentity)) := by
  change execWakeIdentityReadEnd b0 b1 b2 s = _
  unfold execWakeIdentityReadEnd
  obtain ⟨p, k, _, _, _, _, _, _, _, _⟩ := r
  obtain rfl := hkind
  obtain rfl := hport
  rw [h]

theorem wakeIdentityEnd_of_p1 {r : FetchRead} {b0 b1 b2 : Byte} (h : s.engine.read = some r)
    (hkind : r.kind = .wakeIdentity) (hport : r.port = .p1) : exec (.wakeIdentityReadEnd b0 b1 b2) s =
      .next (State.startRead
        { s.closeWakeRead with engine := { s.closeWakeRead.engine with wake1 := some ⟨b0, b1, b2⟩ } } .wake
        s.closeWakeRead.wakeBodyRead) := by
  change execWakeIdentityReadEnd b0 b1 b2 s = _
  unfold execWakeIdentityReadEnd
  obtain ⟨p, k, _, _, _, _, _, _, _, _⟩ := r
  obtain rfl := hkind
  obtain rfl := hport
  rw [h]

theorem wakeBodyRead_of_context {c : VerificationContext} (h : s.control.context = some c) :
    s.wakeBodyRead = s.fuses.dataRead .p0 .wakeBody (s.fuses.anchorBase c.anchor * 131072) 128 := by
  unfold wakeBodyRead activeAnchor
  rw [h]
  rfl

end State

/-- Settles O52: the timer's expiry by phase, then the two identity reads. -/
theorem wakeReadsFollowTheSettleTimer : Obligations.WakeReadsFollowTheSettleTimer := by
  intro s b0 b1 b2 identity left
  refine ⟨fun start h hdue => ⟨fun hphase => ?_, fun hphase => ?_⟩, fun r h hkind hport => ?_,
    fun r c h hkind hport hc => ?_⟩
  · rw [State.settleExpiry_of_recovery h hdue hphase]
    rfl
  · rw [State.settleExpiry_of_run h hdue hphase]
    rfl
  · rw [State.wakeIdentityEnd_of_p0 h hkind hport, State.closeWakeRead_of_read h, hport]
    rfl
  · have hclosed : s.closeWakeRead.control.context = some c := by
      obtain ⟨a, b, hframe⟩ := s.closeWakeRead_frame
      rw [hframe]
      exact hc
    rw [State.wakeIdentityEnd_of_p1 h hkind hport, State.wakeBodyRead_of_context hclosed,
      State.closeWakeRead_of_read h, hport]
    rfl

/-! ### The wake check -/

/-- The bits of the detail byte of a WAKE_MISMATCH record (R161). -/
theorem wakeBits (zero one digest good : Bool) (i : Nat) (hi : i < 8) :
    (BitVec.ofNat 8 (flagBit 0 zero + flagBit 1 one +
      (if good then flagBit 2 digest else flagBit 3 true))).getLsbD i =
      (decide (i = 0) && zero || decide (i = 1) && one || decide (i = 2) && (good && digest) ||
        decide (i = 3) && !good) := by
  revert zero one digest good i
  decide

theorem wakeLengthGood_iff {bytes : List Byte} : wakeLengthGood bytes = true ↔
    128 ≤ field bytes 32 4 ∧ field bytes 32 4 ≤ 131008 := by
  simp only [wakeLengthGood, Bool.and_eq_true, decide_eq_true_eq]
  exact Iff.rfl

/-- The body of a third wake read is that of the verification context (R188). -/
def bodyMatches (c : VerificationContext) (bytes : List Byte) : Prop :=
  sha256 bytes = c.digest ∧ field bytes 8 4 = c.sequence ∧ field bytes 5 1 = c.slot

theorem wakeDetail_bit {c : VerificationContext} {wake0 wake1 : Option Identity} {bytes : List Byte} {i : Nat}
    (hi : i < 8) : (BitVec.ofNat 8 (wakeDetail c wake0 wake1 bytes)).getLsbD i = true ↔
      i = 0 ∧ wake0 ≠ some c.identity0 ∨ i = 1 ∧ wake1 ≠ some c.identity1 ∨
        i = 2 ∧ wakeLengthGood bytes = true ∧ ¬ bodyMatches c bytes ∨ i = 3 ∧ ¬ wakeLengthGood bytes = true := by
  have hdiffers : (decide (sha256 bytes ≠ c.digest) || decide (headerSequence bytes ≠ c.sequence) ||
      decide (headerSlot bytes ≠ c.slot)) = true ↔ ¬ bodyMatches c bytes := by
    simp only [bodyMatches, Classical.not_and_iff_not_or_not, Bool.or_eq_true, decide_eq_true_eq, or_assoc]
    exact Iff.rfl
  unfold wakeDetail
  rw [wakeBits _ _ _ _ i hi]
  simp only [Bool.or_eq_true, Bool.and_eq_true, decide_eq_true_eq, Bool.not_eq_true', or_assoc, Bool.not_eq_true,
    ← hdiffers]

theorem wakeLength_of_read {bytes : List Byte}
    (h : ((128 ≤ field bytes 32 4 ∧ field bytes 32 4 ≤ 131008) ∧ bytes.length = field bytes 32 4) ∨
      (¬ (128 ≤ field bytes 32 4 ∧ field bytes 32 4 ≤ 131008) ∧ bytes.length = 128)) :
    bytes.length = wakeReadLength bytes ∧ (Instr.wakeCheck bytes).wellFormed = true := by
  have hformed : (Instr.wakeCheck bytes).wellFormed = true ↔ 128 ≤ bytes.length ∧ bytes.length ≤ 131008 := by
    simp only [Instr.wellFormed, Bool.and_eq_true, decide_eq_true_eq]
    exact Iff.rfl
  unfold wakeReadLength
  rw [hformed]
  rcases h with ⟨hgood, hlen⟩ | ⟨hbad, hlen⟩
  · rw [if_pos (wakeLengthGood_iff.2 hgood)]
    exact ⟨hlen, hlen ▸ hgood⟩
  · rw [if_neg (mt wakeLengthGood_iff.1 hbad), hlen]
    decide

section check
variable {bytes : List Byte} {r : FetchRead} {c : VerificationContext}

theorem wakeCheck_of_read (hread : s.engine.read = some r) (hkind : r.kind = .wakeBody)
    (hc : s.control.context = some c) (hlen : bytes.length = wakeReadLength bytes)
    (hformed : (Instr.wakeCheck bytes).wellFormed = true) :
    exec (.wakeCheck bytes) s = .next (if wakeDetail c s.engine.wake0 s.engine.wake1 bytes = 0
      then s.endWakeJob.wakeMatch
      else s.endWakeJob.wakeMismatch (wakeDetail c s.engine.wake0 s.engine.wake1 bytes)) := by
  change execWakeCheck bytes s = _
  unfold execWakeCheck whenWellFormed State.wakeEnd
  obtain ⟨_, k, _, _, _, _, _, _, _, _⟩ := r
  obtain rfl := hkind
  rw [if_pos hformed, hread, hc]
  exact congrArg Host.Outcome.next (if_pos hlen)

theorem endWakeJob_of_p0 (hread : s.engine.read = some r) (hport : r.port = .p0) : s.endWakeJob = { s with
    port0 := s.port0.afterWakeRead
    engine := { s.engine with job := .idle, read := none, wake0 := none, wake1 := none } } := by
  unfold State.endWakeJob
  rw [State.closeWakeRead_of_read hread, hport]
  rfl

/-- A port that a wake read gave back is as the return to ACTIVE leaves it (R136, R186). -/
theorem afterWakeRead_resumed (q : PortState) : q.afterWakeRead.resumed = q.afterWakeRead := by
  unfold PortState.resumed PortState.afterWakeRead
  dsimp only
  split <;> rfl

theorem wakeDetail_of_match (hgood : wakeLengthGood bytes = true) (hbody : bodyMatches c bytes) :
    wakeDetail c (some c.identity0) (some c.identity1) bytes = 0 := by
  obtain ⟨hdigest, hsequence, hslot⟩ := hbody
  simp [wakeDetail, hgood, hdigest, show headerSequence bytes = c.sequence from hsequence,
    show headerSlot bytes = c.slot from hslot, flagBit]

theorem wakeDetail_of_bits {detail : Byte} {wake0 wake1 : Option Identity}
    (h0 : detail.getLsbD 0 = true ↔ wake0 ≠ some c.identity0)
    (h1 : detail.getLsbD 1 = true ↔ wake1 ≠ some c.identity1)
    (h2 : detail.getLsbD 2 = true ↔ wakeLengthGood bytes = true ∧ ¬ bodyMatches c bytes)
    (h3 : detail.getLsbD 3 = true ↔ ¬ wakeLengthGood bytes = true)
    (hrest : ∀ i, 4 ≤ i → detail.getLsbD i = false) :
    BitVec.ofNat 8 (wakeDetail c wake0 wake1 bytes) = detail := by
  apply BitVec.eq_of_getLsbD_eq
  intro i hi
  rw [Bool.eq_iff_iff, wakeDetail_bit hi]
  rcases Nat.lt_or_ge i 4 with hlow | hhigh
  · rcases (by omega : i = 0 ∨ i = 1 ∨ i = 2 ∨ i = 3) with rfl | rfl | rfl | rfl
    · rw [h0]; simp
    · rw [h1]; simp
    · rw [h2]; simp
    · rw [h3]; simp
  · rw [hrest i hhigh]
    simp only [Bool.false_eq_true, iff_false]
    omega

theorem wakeMismatch_eq (hphase : s.control.phase = .run) (detail : Nat) : s.wakeMismatch detail =
    State.recovered { s with
        faults := pushRecord s.faults ⟨.wakeMismatch, s.time, .run, none, none, none, BitVec.ofNat 8 detail⟩
        alert := s.alert.push s.settings.alertMode s.time
        gates := { s.gates with
          print := { s.gates.print with latch := true }, scan := { s.gates.scan with latch := true } }
        power := { s.power with state := .active, settle := none } }
      s.port0.resumed s.port1.resumed := by
  unfold State.wakeMismatch
  rw [State.pushFault_of_not_halted (by rw [hphase]; decide),
    State.enterRecovery_of_not_hold (by change s.control.phase ≠ .hold; rw [hphase]; decide)]
  simp only [State.latchGates, Bool.or_true, hphase]
  rfl

end check

/-- Settles O53: the check that finds nothing, then the one that finds a difference. -/
theorem wakeCheckDecides : Obligations.WakeCheckDecides := by
  intro bytes s r c hread hkind hport hc hphase hcrst inRange read body
  refine ⟨fun hlen h0 h1 hrange hbody => ?_, fun detail hlen hbit0 hbit1 hbit2 hbit3 hrest hdetail => ?_⟩
  · obtain ⟨hlength, hformed⟩ := wakeLength_of_read hlen
    rw [wakeCheck_of_read hread hkind hc hlength hformed, h0, h1,
      if_pos (wakeDetail_of_match (wakeLengthGood_iff.2 hrange) hbody), endWakeJob_of_p0 hread hport]
    unfold State.wakeMatch State.becomeActive
    dsimp only
    rw [afterWakeRead_resumed]
    rfl
  · obtain ⟨hlength, hformed⟩ := wakeLength_of_read hlen
    have hbits : BitVec.ofNat 8 (wakeDetail c s.engine.wake0 s.engine.wake1 bytes) = detail :=
      wakeDetail_of_bits hbit0 hbit1 (hbit2.trans (and_congr_left fun _ => wakeLengthGood_iff.symm))
        (hbit3.trans (not_congr wakeLengthGood_iff.symm)) hrest
    have hne : wakeDetail c s.engine.wake0 s.engine.wake1 bytes ≠ 0 := fun hzero =>
      hdetail (hbits.symm.trans (by rw [hzero]; rfl))
    rw [wakeCheck_of_read hread hkind hc hlength hformed, if_neg hne, endWakeJob_of_p0 hread hport,
      wakeMismatch_eq (by exact hphase), hbits]
    dsimp only
    rw [afterWakeRead_resumed]
    exact ⟨_, rfl, rfl, rfl, rfl, rfl, rfl, rfl, State.changeMode_after_push .., rfl, rfl, rfl, rfl, rfl, rfl, rfl,
      rfl, rfl, rfl, rfl, rfl, rfl, rfl, rfl, rfl, rfl, rfl⟩

end Sys2Proof.Machine
end

section
/-!
Power-up authentication (chapter 4): the key store check, the identity reads, the header reads and the evaluation
of the candidates.
-/
namespace Sys2Proof.Machine
variable {s : State}

/-! ### The key store check (R26, R57) -/

theorem KeySlot.sound_iff {k : KeySlot} : k.sound = true ↔ (k.provisioned = true → crc32 k.key = k.check) := by
  simp only [KeySlot.sound, Bool.or_eq_true, Bool.not_eq_true', decide_eq_true_eq]
  cases k.provisioned <;> simp

theorem Fuses.usable_iff {f : Fuses} {i : Nat} : f.usable i = true ↔
    (f.slot i).provisioned = true ∧ f.revoked.getLsbD i = false := by
  simp [Fuses.usable]

theorem Fuses.all_sound_iff {f : Fuses} : (List.range 4).all (fun i => (f.slot i).sound) = true ↔
    ∀ i, i < 4 → (f.slot i).provisioned = true → crc32 (f.slot i).key = (f.slot i).check := by
  simp only [List.all_eq_true, List.mem_range, KeySlot.sound_iff]

theorem Fuses.any_usable_iff {f : Fuses} : (List.range 4).any (fun i => f.usable i) = true ↔
    ∃ i, i < 4 ∧ (f.slot i).provisioned = true ∧ f.revoked.getLsbD i = false := by
  simp only [List.any_eq_true, List.mem_range, Fuses.usable_iff]

section outcome
variable {f : Fuses}

theorem Fuses.keyCheck_of_unsound (h : ¬ ∀ i, i < 4 → (f.slot i).provisioned = true →
    crc32 (f.slot i).key = (f.slot i).check) : f.keyCheck = .corrupt := by
  unfold Fuses.keyCheck
  rw [Bool.eq_false_iff.2 (mt Fuses.all_sound_iff.1 h)]
  rfl

variable (hsound : ∀ i, i < 4 → (f.slot i).provisioned = true → crc32 (f.slot i).key = (f.slot i).check)
include hsound

theorem Fuses.keyCheck_of_usable (h : ∃ i, i < 4 ∧ (f.slot i).provisioned = true ∧ f.revoked.getLsbD i = false) :
    f.keyCheck = .good := by
  unfold Fuses.keyCheck
  rw [Fuses.all_sound_iff.2 hsound, Fuses.any_usable_iff.2 h]
  rfl

theorem Fuses.keyCheck_of_unusable (h : ¬ ∃ i, i < 4 ∧ (f.slot i).provisioned = true ∧ f.revoked.getLsbD i = false) :
    f.keyCheck = .noUsable := by
  unfold Fuses.keyCheck
  rw [Fuses.all_sound_iff.2 hsound, Bool.eq_false_iff.2 (mt Fuses.any_usable_iff.1 h)]
  rfl

end outcome

namespace State

theorem cutAdvance_of_nil (h : s.advance = []) : s.cutAdvance = s := by
  unfold cutAdvance
  rw [h]

theorem enterHalted_of_nil (h : s.advance = []) : s.enterHalted = { s with
    control := { s.control with phase := .halted, step := .done }
    lines := { s.lines with crst := true, epwr := false, earm := false, scnen := false }
    alert := { asserted := true, pendingPulses := 0, timing := .idle }
    port0 := s.port0.idle, port1 := s.port1.idle, transaction := none
    engine := { s.engine with job := .idle, read := none }
    gates := { s.gates with
      print := { s.gates.print with state := .off }, scan := { s.gates.scan with state := .off }
      timer := none, deadline := .disarmed }
    pool := { s.pool with record := none } } := by
  unfold enterHalted
  rw [cutAdvance_of_nil h]
  rfl

end State

section resetEnd
variable (hrst : s.lines.rst = true)
include hrst

theorem resetEnd_of_corrupt (h : s.fuses.keyCheck = .corrupt) :
    exec .resetEnd s = .next (State.enterHalted { s with lines := { s.lines with rst := false } }) := by
  change execResetEnd s = _
  unfold execResetEnd
  rw [if_pos hrst, h]

theorem resetEnd_of_noUsable (h : s.fuses.keyCheck = .noUsable) : exec .resetEnd s =
    .next (State.pushFault { s with lines := { s.lines with rst := false } } .noKey none none none
      0).enterRecovery := by
  change execResetEnd s = _
  unfold execResetEnd
  rw [if_pos hrst, h]

theorem resetEnd_of_good (h : s.fuses.keyCheck = .good) : exec .resetEnd s =
    .next (State.startRead { s with
        lines := { s.lines with rst := false }, control := { s.control with step := .identities } } .manifest
      (identityRead .p0 .identity)) := by
  change execResetEnd s = _
  unfold execResetEnd
  rw [if_pos hrst, h]

end resetEnd

/-- Settles O5, by the outcome of the check. -/
theorem keyStoreCheckDecides : Obligations.KeyStoreCheckDecides := by
  intro s hrst hphase hadvance sound usable
  refine ⟨fun ⟨i, hi, hbad⟩ => ?_, fun hsound hnone => ?_, fun hsound hsome => ?_⟩
  · rw [resetEnd_of_corrupt hrst (Fuses.keyCheck_of_unsound fun hall => hbad (hall i hi)),
      State.enterHalted_of_nil (by exact hadvance)]
    exact ⟨_, rfl, rfl, rfl, rfl, rfl, rfl, rfl, rfl, rfl⟩
  · rw [resetEnd_of_noUsable hrst (Fuses.keyCheck_of_unusable hsound fun ⟨i, hi, hu⟩ => hnone i hi hu),
      State.pushFault_of_not_halted (by change s.control.phase ≠ .halted; rw [hphase]; decide)]
    dsimp only
    rw [State.enterRecovery_of_hold (by exact hphase), hphase]
    exact ⟨_, rfl, rfl, rfl, rfl, rfl, rfl, rfl, rfl⟩
  · rw [resetEnd_of_good hrst (Fuses.keyCheck_of_usable hsound hsome)]
    rfl

/-! ### The identity reads (R58) -/

namespace State

theorem closeRead_of_read {r : FetchRead} (h : s.engine.read = some r) : s.closeRead =
    { s.setPort r.port (s.port r.port).idle with engine := { s.engine with read := none } } := by
  unfold closeRead
  rw [h]

section identity
variable {r : FetchRead} {b0 b1 b2 : Byte} (h : s.engine.read = some r) (hkind : r.kind = .identity)
include h hkind

theorem identityEnd_of_p0 (hport : r.port = .p0) : exec (.identityReadEnd b0 b1 b2) s =
    .next (startRead
      { s.closeRead with control := { s.closeRead.control with pending0 := some ⟨b0, b1, b2⟩ } } .manifest
      (identityRead .p1 .identity)) := by
  change execIdentityReadEnd b0 b1 b2 s = _
  unfold execIdentityReadEnd
  obtain ⟨p, k, _, _, _, _, _, _, _, _⟩ := r
  obtain rfl := hkind
  obtain rfl := hport
  rw [h]

theorem identityEnd_of_p1 (hport : r.port = .p1) : exec (.identityReadEnd b0 b1 b2) s =
    .next (startRead { s.closeRead with
        control := { s.closeRead.control with pending1 := some ⟨b0, b1, b2⟩, step := .headers } } .manifest
      (s.closeRead.fuses.headerRead .primary)) := by
  change execIdentityReadEnd b0 b1 b2 s = _
  unfold execIdentityReadEnd
  obtain ⟨p, k, _, _, _, _, _, _, _, _⟩ := r
  obtain rfl := hkind
  obtain rfl := hport
  rw [h]

end identity
end State

/-- Settles O6, port by port. -/
theorem identityReadEndHoldsTheIdentity : Obligations.IdentityReadEndHoldsTheIdentity := by
  intro b0 b1 b2 s r h hkind
  refine ⟨fun hport => ?_, fun hport => ?_⟩
  · rw [State.identityEnd_of_p0 h hkind hport, State.closeRead_of_read h, hport]
    rfl
  · rw [State.identityEnd_of_p1 h hkind hport, State.closeRead_of_read h, hport]
    rfl

/-! ### The header reads (R59, R60) -/

namespace State

theorem takeHeader_of_magic {bytes : List Byte} (h : field bytes 0 4 = 0x56474D31) (a : Anchor) :
    s.takeHeader a bytes = { s with control := { s.control with
      candidates := s.control.candidates ++ [⟨a, bytes, field bytes 8 4, none⟩] } } := if_pos h

theorem takeHeader_of_no_magic {bytes : List Byte} (hphase : s.control.phase = .hold)
    (h : ¬ field bytes 0 4 = 0x56474D31) (a : Anchor) : s.takeHeader a bytes = { s with
      faults := pushRecord s.faults ⟨.manifestRejected, s.time, .hold, none, none, none, rejectDetail a .noMagic 0⟩
      alert := s.alert.push s.settings.alertMode s.time } :=
  (if_neg h).trans (by rw [reject_eq (by rw [hphase]; decide), hphase])

section header
variable {r : FetchRead} {bytes : List Byte} (hlen : bytes.length = 128) (h : s.engine.read = some r)
include hlen h

theorem headerEnd_of_primary (hkind : r.kind = .header .primary) : exec (.headerReadEnd bytes) s =
    .next ((s.closeRead.takeHeader .primary bytes).startRead .manifest
      ((s.closeRead.takeHeader .primary bytes).fuses.headerRead .fallback)) := by
  have hformed : (Instr.headerReadEnd bytes).wellFormed = true := beq_iff_eq.2 hlen
  change whenWellFormed (.headerReadEnd bytes) (s.headerEnd bytes) = _
  unfold whenWellFormed headerEnd
  obtain ⟨p, k, _, _, _, _, _, _, _, _⟩ := r
  obtain rfl := hkind
  rw [if_pos hformed, h]

theorem headerEnd_of_fallback (hkind : r.kind = .header .fallback) : exec (.headerReadEnd bytes) s =
    .next (State.evaluate { s.closeRead.takeHeader .fallback bytes with
        control := { (s.closeRead.takeHeader .fallback bytes).control with step := .evaluate } }
      (orderCandidates (s.closeRead.takeHeader .fallback bytes).control.candidates)) := by
  have hformed : (Instr.headerReadEnd bytes).wellFormed = true := beq_iff_eq.2 hlen
  change whenWellFormed (.headerReadEnd bytes) (s.headerEnd bytes) = _
  unfold whenWellFormed headerEnd
  obtain ⟨p, k, _, _, _, _, _, _, _, _⟩ := r
  obtain rfl := hkind
  rw [if_pos hformed, h]

end header
end State

/-- Settles O7: the magic decides, then the fallback's read begins. -/
theorem primaryHeaderIsJudgedByItsMagic : Obligations.PrimaryHeaderIsJudgedByItsMagic := by
  intro bytes s r hlen h hkind hport hphase magic t
  rw [State.headerEnd_of_primary hlen h hkind, State.closeRead_of_read h, hport]
  refine ⟨fun hmagic => ?_, fun hnone => ?_⟩
  · rw [State.takeHeader_of_magic hmagic]
    rfl
  · rw [State.takeHeader_of_no_magic (by exact hphase) hnone]
    rfl

end Sys2Proof.Machine
end

section
/-!
The candidates in order, their rejections, and the body read of the first that passes its header checks
(R59 to R64, R66, R67).
-/
namespace Sys2Proof.Machine
variable {s : State}

/-! ### The evaluation of a list of candidates -/

/-- The fault stack after candidates are rejected on their headers, in order (R64). -/
def rejections (now : Time) (faults : List FaultRecord) (l : List Candidate) (reasons : List RejectReason) :
    List FaultRecord :=
  (l.zip reasons).foldl (fun f e => pushRecord f
    ⟨.manifestRejected, now, .hold, none, none, none, rejectDetail e.1.anchor e.2 0⟩) faults

/-- The alert line after as many pushes as a list is long (R167, R168). -/
def pushEach {α : Type} (a : Alert) (mode : AlertMode) (now : Time) (l : List α) : Alert :=
  l.foldl (fun a _ => a.push mode now) a

theorem pushEach_zip {α β : Type} (a : Alert) (mode : AlertMode) (now : Time) {l : List α} {q : List β}
    (h : l.length = q.length) : pushEach a mode now (l.zip q) = pushEach a mode now l := by
  induction l generalizing a q with
  | nil => rfl
  | cons x l ih =>
    cases q with
    | nil => cases h
    | cons y q => exact ih (a.push mode now) (Nat.succ.inj h)

namespace State

section evaluation
variable {l rejected rest : List Candidate} {c : Candidate} {reasons : List RejectReason}
  (hphase : s.control.phase = .hold)
include hphase

theorem rejectEach_of_hold (hreasons : l.map (fun x => headerReject s.fuses x.header) = reasons.map some) :
    s.rejectEach (l.zip reasons) = { s with
      faults := rejections s.time s.faults l reasons
      alert := pushEach s.alert s.settings.alertMode s.time l } := by
  have hlen : l.length = reasons.length := by simpa using congrArg List.length hreasons
  rw [rejectEach_eq _ _ (by rw [hphase]; decide), hphase, ← pushEach_zip _ _ _ hlen]
  rfl

theorem evaluate_of_pass (hreasons : rejected.map (fun x => headerReject s.fuses x.header) = reasons.map some)
    (hpass : headerReject s.fuses c.header = none) : s.evaluate (rejected ++ c :: rest) = { s with
      control := { s.control with candidates := c :: rest }
      faults := rejections s.time s.faults rejected reasons
      alert := pushEach s.alert s.settings.alertMode s.time rejected
      port0 := { s.port0 with owner := .fetch, select := true }
      engine := { s.engine with
        job := .manifest
        read := some (s.fuses.dataRead .p0 .body (s.fuses.anchorBase c.anchor * 131072 + 128)
          (field c.header 32 4 - 64)) } } := by
  rw [evaluate_rejected s.fuses rejected s reasons _ rfl hreasons, rejectEach_of_hold hphase hreasons,
    evaluate_pass (by exact hpass)]
  rfl

theorem evaluate_of_none (hreasons : l.map (fun x => headerReject s.fuses x.header) = reasons.map some) :
    s.evaluate l = State.recovered { s with
        control := { s.control with candidates := [] }
        faults := pushRecord (rejections s.time s.faults l reasons) ⟨.noManifest, s.time, .hold, none, none, none, 0⟩
        alert := (pushEach s.alert s.settings.alertMode s.time l).push s.settings.alertMode s.time }
      s.port0.released s.port1.released := by
  have hall := evaluate_rejected s.fuses l s reasons [] rfl hreasons
  rw [List.append_nil] at hall
  rw [hall, rejectEach_of_hold hphase hreasons, evaluate_nil,
    pushFault_of_not_halted (by change s.control.phase ≠ .halted; rw [hphase]; decide),
    enterRecovery_of_hold (by exact hphase)]
  dsimp only [setCandidates]
  rw [hphase]

end evaluation

/-! ### The listed candidates (R60) -/

/-- The part once the fallback header's magic is judged, its read closed (R59). -/
def listing (s : State) (bytes : List Byte) : State :=
  { s with
    control := { s.control with
      step := .evaluate
      candidates := if field bytes 0 4 = 0x56474D31
        then s.control.candidates ++ [⟨.fallback, bytes, field bytes 8 4, none⟩] else s.control.candidates }
    faults := if field bytes 0 4 = 0x56474D31 then s.faults
      else pushRecord s.faults ⟨.manifestRejected, s.time, .hold, none, none, none, 0x40⟩
    alert := if field bytes 0 4 = 0x56474D31 then s.alert else s.alert.push s.settings.alertMode s.time
    port0 := s.abortedPort .p0, port1 := s.abortedPort .p1
    engine := { s.engine with read := none } }

theorem headerEnd_listing {r : FetchRead} {bytes : List Byte} (hlen : bytes.length = 128)
    (h : s.engine.read = some r) (hkind : r.kind = .header .fallback) (hphase : s.control.phase = .hold) :
    exec (.headerReadEnd bytes) s =
      .next ((s.listing bytes).evaluate (orderCandidates (s.listing bytes).control.candidates)) := by
  have hlisting : { s.closeRead.takeHeader .fallback bytes with
      control := { (s.closeRead.takeHeader .fallback bytes).control with step := .evaluate } } = s.listing bytes := by
    rw [closeRead_eq]
    unfold listing
    by_cases hmagic : field bytes 0 4 = 0x56474D31
    · rw [takeHeader_of_magic hmagic, if_pos hmagic, if_pos hmagic, if_pos hmagic]
    · rw [takeHeader_of_no_magic (by exact hphase) hmagic, if_neg hmagic, if_neg hmagic, if_neg hmagic]
      rfl
  rw [headerEnd_of_fallback hlen h hkind, ← hlisting]

theorem orderCandidates_of_short {l : List Candidate} (h : l.length ≤ 1) : orderCandidates l = l := by
  match l, h with
  | [], _ | [_], _ => rfl

theorem orderCandidates_pair (p q : Candidate) :
    orderCandidates ([p] ++ [q]) = if p.sequence < q.sequence then [q, p] else [p, q] := rfl

/-- The candidates in order, with at most the primary held before (R60). -/
theorem order_listing {bytes : List Byte} (hcount : s.control.candidates.length ≤ 1) :
    orderCandidates (s.listing bytes).control.candidates = if field bytes 0 4 = 0x56474D31 then
        (match s.control.candidates with
          | [p] => if p.sequence < field bytes 8 4 then [⟨.fallback, bytes, field bytes 8 4, none⟩, p]
            else [p, ⟨.fallback, bytes, field bytes 8 4, none⟩]
          | _ => [⟨.fallback, bytes, field bytes 8 4, none⟩])
      else s.control.candidates := by
  dsimp only [listing]
  split
  · match s.control.candidates, hcount with
    | [], _ => rfl
    | [p], _ => exact orderCandidates_pair p _
  · exact orderCandidates_of_short hcount

theorem abortedPort_of_port {r : FetchRead} (h : s.engine.read = some r) {p : Port} (hp : r.port = p) :
    s.abortedPort p = (s.port p).idle := if_pos (by rw [h, Option.map_some, hp])

theorem abortedPort_of_other {r : FetchRead} (h : s.engine.read = some r) {p : Port} (hp : r.port ≠ p) :
    s.abortedPort p = s.port p := if_neg (by rwa [h, Option.map_some, Option.some.injEq])

/-- A port's release does not depend on the read that ran on it (R21, R67). -/
theorem abortedPort_released (s : State) (p : Port) : (s.abortedPort p).released = (s.port p).released := by
  unfold abortedPort
  split <;> rfl

end State

/-- Settles O9: the order of the list, then the evaluation up to the first header that passes. -/
theorem higherSequenceIsReadFirst : Obligations.HigherSequenceIsReadFirst := by
  intro bytes s r rejected rest c reasons hlen h hkind hport hphase hcount q listed record first mode hlisted hreasons
    hpass
  have horder : orderCandidates (s.listing bytes).control.candidates = listed := State.order_listing hcount
  rw [State.headerEnd_listing hlen h hkind hphase, horder, hlisted,
    State.evaluate_of_pass (by exact hphase) (by exact hreasons) (by exact hpass)]
  unfold State.listing
  rw [State.abortedPort_of_port h hport, State.abortedPort_of_other h (by rw [hport]; decide)]
  rfl

/-- Settles O8: as for O9, with every listed candidate rejected. -/
theorem noManifestLeadsToRecovery : Obligations.NoManifestLeadsToRecovery := by
  intro bytes s r reasons hlen h hkind hphase hcount q listed record first released hreasons
  have horder : orderCandidates (s.listing bytes).control.candidates = listed := State.order_listing hcount
  rw [State.headerEnd_listing hlen h hkind hphase, horder,
    State.evaluate_of_none (by exact hphase) (by exact hreasons)]
  refine ⟨_, rfl, rfl, rfl, rfl, rfl, rfl, rfl, rfl, rfl, rfl, rfl, State.changeMode_after_push .., ?_, ?_, rfl, rfl,
    rfl, rfl, rfl, rfl, rfl, rfl, rfl, rfl, rfl, rfl⟩
  · exact s.abortedPort_released .p0
  · exact s.abortedPort_released .p1

/-! ### The end of a body read (R62, R63) -/

/-- An element within a list does not depend on the default. -/
theorem getD_of_lt {α : Type} {l : List α} {i : Nat} (h : i < l.length) (d : α) : l.getD i d = l[i] := by
  simp [List.getD, List.getElem?_eq_getElem h]

theorem rollbackClass_eq_some {d : List Int} {k : Nat} (hk : k < d.length) (hneg : d.getD k 0 < 0)
    (hbefore : ∀ j, j < k → 0 ≤ d.getD j 0) : rollbackClass d = some k := by
  unfold rollbackClass
  rw [List.findIdx?_eq_some_iff_getElem]
  refine ⟨hk, ?_, fun j hj => ?_⟩
  · rw [getD_of_lt hk] at hneg
    simpa using hneg
  · have hnonneg := hbefore j hj
    rw [getD_of_lt (Nat.lt_trans hj hk)] at hnonneg
    simpa using hnonneg

theorem rollbackClass_eq_none {d : List Int} (h : ∀ x ∈ d, 0 ≤ x) : rollbackClass d = none := by
  unfold rollbackClass
  rw [List.findIdx?_eq_none_iff]
  exact fun x hx => decide_eq_false (Int.not_lt.2 (h x hx))

theorem Fuses.differences_length (f : Fuses) (versions : List Nat) : (f.differences versions).length = 8 := by
  simp [Fuses.differences]

namespace State

section body
variable {r : FetchRead} {bytes : List Byte} {c : Candidate} {rest : List Candidate}

/-- The part with the body read closed and the candidate's copy filled (R62). -/
def copied (s : State) (c : Candidate) (rest : List Candidate) (copy : CandidateCopy) : State :=
  { s with
    control := { s.control with candidates := { c with copy := some copy } :: rest }
    port0 := s.abortedPort .p0, port1 := s.abortedPort .p1
    engine := { s.engine with read := none } }

theorem bodyEnd_of_read (h : s.engine.read = some r) (hkind : r.kind = .body)
    (hlist : s.control.candidates = c :: rest) (hlow : 128 ≤ bytes.length)
    (hlen : bytes.length + 64 = headerBodyLength c.header) (hhigh : bytes.length ≤ 130944) :
    exec (.bodyReadEnd bytes) s = .next ((s.copied c rest (readCopy c.header bytes)).judgeBody c rest bytes
      (readCopy c.header bytes)) := by
  have hformed : (Instr.bodyReadEnd bytes).wellFormed = true := by
    simp only [Instr.wellFormed, Bool.and_eq_true, decide_eq_true_eq]
    exact ⟨hlow, hhigh⟩
  have hcopied : s.closeRead.setCandidates ({ c with copy := some (readCopy c.header bytes) } :: rest) =
      s.copied c rest (readCopy c.header bytes) := by
    rw [closeRead_eq]
    rfl
  change whenWellFormed (.bodyReadEnd bytes) (s.bodyEnd bytes) = _
  unfold whenWellFormed bodyEnd
  obtain ⟨p, k, _, _, _, _, _, _, _, _⟩ := r
  obtain rfl := hkind
  rw [if_pos hformed, h, hlist, ← hcopied]
  exact congrArg Host.Outcome.next (if_pos hlen)

/-- The first check that the body fails gives the detail of its rejection (R63, R64). -/
theorem judgeBody_of_failure {copy : CandidateCopy} {d : List Int} {x : Byte}
    (hd : d = s.fuses.differences (headerVersions c.header))
    (hfails : (candidateSigned s.fuses c.header bytes copy = false ∧ x = rejectDetail c.anchor .signature 0) ∨
      (candidateSigned s.fuses c.header bytes copy = true ∧
        ∃ k, k < 8 ∧ d.getD k 0 < 0 ∧ (∀ j, j < k → 0 ≤ d.getD j 0) ∧ x = rejectDetail c.anchor .rollback k) ∨
      (candidateSigned s.fuses c.header bytes copy = true ∧ (∀ y ∈ d, 0 ≤ y) ∧
        structureGood s.fuses c.header copy = false ∧ x = rejectDetail c.anchor .structural 0)) :
    s.judgeBody c rest bytes copy = (s.pushFault .manifestRejected none none none x).evaluate rest := by
  unfold judgeBody
  subst hd
  dsimp only
  rcases hfails with ⟨hsigned, rfl⟩ | ⟨hsigned, k, hk, hneg, hbefore, rfl⟩ | ⟨hsigned, hall, hbad, rfl⟩
  · rw [hsigned]
    rfl
  · rw [hsigned, rollbackClass_eq_some (by rwa [Fuses.differences_length]) hneg hbefore]
    rfl
  · rw [hsigned, rollbackClass_eq_none hall, hbad]
    rfl

end body
end State

/-- Settles O12: the first failing check, then the candidates that remain. -/
theorem lastRejectionEndsInRecovery : Obligations.LastRejectionEndsInRecovery := by
  intro bytes s r c rest copy d x reasons h hkind hphase hlist hlow hlen hhigh hcopy hd hfails mode record pushed released
  subst hcopy
  rw [State.bodyEnd_of_read h hkind hlist hlow hlen hhigh,
    State.judgeBody_of_failure (s := s.copied c rest (readCopy c.header bytes)) (by exact hd) (by exact hfails),
    State.pushFault_of_not_halted (by change s.control.phase ≠ .halted; rw [hphase]; decide)]
  refine ⟨fun rejected next after hrest hport hreasons hpass => ?_, fun hreasons => ?_⟩
  · rw [hrest, State.evaluate_of_pass (by exact hphase) (by exact hreasons) (by exact hpass)]
    unfold State.copied
    rw [State.abortedPort_of_port h hport, State.abortedPort_of_other h (by rw [hport]; decide)]
    dsimp only
    rw [hphase]
    rfl
  · rw [State.evaluate_of_none (by exact hphase) (by exact hreasons)]
    unfold State.copied
    dsimp only
    rw [hphase]
    refine ⟨_, rfl, rfl, rfl, rfl, rfl, rfl, rfl, rfl, rfl, rfl, rfl, State.changeMode_after_push .., ?_, ?_, rfl, rfl,
      rfl, rfl, rfl, rfl, rfl, rfl, rfl, rfl, rfl, rfl⟩
    · exact s.abortedPort_released .p0
    · exact s.abortedPort_released .p1

end Sys2Proof.Machine
end

section
/-!
What the bytes of a manifest say (12.1): the header checks, the fields of the records, the structure check, and the
order of the segments in the digest list.
-/
namespace Sys2Proof.Machine

/-! ### The header checks (R51, R52, R27) -/

theorem headerVersions_le_iff {h : List Byte} : (headerVersions h).all (fun v => decide (v ≤ 63)) = true ↔
    ∀ c, c < 8 → field h (12 + c) 1 ≤ 63 := by
  simp only [headerVersions, List.all_map, List.all_eq_true, List.mem_range, Function.comp_apply, decide_eq_true_eq]

theorem formatGood_iff {h : List Byte} : formatGood h = true ↔
    field h 4 1 = 1 ∧ field h 5 1 ≤ 3 ∧ (∀ c, c < 8 → field h (12 + c) 1 ≤ 63) ∧
      field h 32 4 = 128 + 32 * field h 22 1 + 8 * field h 23 1 + 64 + 32 * field h 24 2 := by
  simp only [formatGood, Bool.and_eq_true, headerVersions_le_iff, decide_eq_true_eq, and_assoc]
  exact Iff.rfl

section reject
variable {f : Fuses} {h : List Byte}

theorem headerReject_of_format (hformat : ¬ formatGood h = true) : headerReject f h = some .badFormat := by
  unfold headerReject
  rw [Bool.eq_false_iff.2 hformat]
  rfl

theorem headerReject_of_size (hformat : formatGood h = true) (hsize : ¬ headerBodyLength h ≤ longestBody) :
    headerReject f h = some .tooLarge := by
  unfold headerReject
  rw [hformat, if_neg (by decide), if_pos (Nat.not_le.1 hsize)]

theorem headerReject_of_absent (hformat : formatGood h = true) (hsize : headerBodyLength h ≤ longestBody)
    (hslot : ¬ (f.slot (headerSlot h)).provisioned = true) : headerReject f h = some .keyAbsent := by
  unfold headerReject
  rw [hformat, if_neg (by decide), if_neg (Nat.not_lt.2 hsize), Bool.eq_false_iff.2 hslot]
  rfl

theorem headerReject_of_slot (hformat : formatGood h = true) (hsize : headerBodyLength h ≤ longestBody)
    (hslot : (f.slot (headerSlot h)).provisioned = true) : headerReject f h =
      if f.revoked.getLsbD (headerSlot h) = true then some .keyRevoked else none := by
  unfold headerReject
  rw [hformat, if_neg (by decide), if_neg (Nat.not_lt.2 hsize), hslot]
  rfl

/-- The header checks in their order, the first that fails giving the reason (R61). -/
theorem headerReject_cases (f : Fuses) (h : List Byte) :
    (headerReject f h = some .badFormat ∧ ¬ formatGood h = true) ∨
    (headerReject f h = some .tooLarge ∧ formatGood h = true ∧ ¬ headerBodyLength h ≤ longestBody) ∨
    (headerReject f h = some .keyAbsent ∧ formatGood h = true ∧ headerBodyLength h ≤ longestBody ∧
      ¬ (f.slot (headerSlot h)).provisioned = true) ∨
    (headerReject f h = some .keyRevoked ∧ formatGood h = true ∧ headerBodyLength h ≤ longestBody ∧
      (f.slot (headerSlot h)).provisioned = true ∧ f.revoked.getLsbD (headerSlot h) = true) ∨
    (headerReject f h = none ∧ formatGood h = true ∧ headerBodyLength h ≤ longestBody ∧
      (f.slot (headerSlot h)).provisioned = true ∧ ¬ f.revoked.getLsbD (headerSlot h) = true) := by
  by_cases hformat : formatGood h = true
  · by_cases hsize : headerBodyLength h ≤ longestBody
    · by_cases hslot : (f.slot (headerSlot h)).provisioned = true
      · have hlast := headerReject_of_slot hformat hsize hslot
        by_cases hrevoked : f.revoked.getLsbD (headerSlot h) = true
        · rw [if_pos hrevoked] at hlast
          exact .inr (.inr (.inr (.inl ⟨hlast, hformat, hsize, hslot, hrevoked⟩)))
        · rw [if_neg hrevoked] at hlast
          exact .inr (.inr (.inr (.inr ⟨hlast, hformat, hsize, hslot, hrevoked⟩)))
      · exact .inr (.inr (.inl ⟨headerReject_of_absent hformat hsize hslot, hformat, hsize, hslot⟩))
    · exact .inr (.inl ⟨headerReject_of_size hformat hsize, hformat, hsize⟩)
  · exact .inl ⟨headerReject_of_format hformat, hformat⟩

/-- Each reason, by the first check that fails. -/
theorem headerReject_iff (f : Fuses) (h : List Byte) :
    (headerReject f h = some .badFormat ↔ ¬ formatGood h = true) ∧
    (headerReject f h = some .tooLarge ↔ formatGood h = true ∧ ¬ headerBodyLength h ≤ longestBody) ∧
    (headerReject f h = some .keyAbsent ↔ formatGood h = true ∧ headerBodyLength h ≤ longestBody ∧
      ¬ (f.slot (headerSlot h)).provisioned = true) ∧
    (headerReject f h = some .keyRevoked ↔ formatGood h = true ∧ headerBodyLength h ≤ longestBody ∧
      (f.slot (headerSlot h)).provisioned = true ∧ f.revoked.getLsbD (headerSlot h) = true) ∧
    (headerReject f h = none ↔ formatGood h = true ∧ headerBodyLength h ≤ longestBody ∧
      (f.slot (headerSlot h)).provisioned = true ∧ ¬ f.revoked.getLsbD (headerSlot h) = true) := by
  rcases headerReject_cases f h with ⟨hr, h1⟩ | ⟨hr, h1, h2⟩ | ⟨hr, h1, h2, h3⟩ | ⟨hr, h1, h2, h3, h4⟩ | ⟨hr, h1, h2, h3, h4⟩
  all_goals
    rw [hr]
    simp [*]

end reject

/-! ### Slices and single bytes -/

/-- Past its end a list gives the default. -/
theorem getD_of_ge {α : Type} {l : List α} {i : Nat} {d : α} (h : l.length ≤ i) : l.getD i d = d := by
  simp [List.getD, List.getElem?_eq_none h]

/-- The bytes of a list from an offset on are all 0. -/
theorem all_zero_drop_iff {l : List Byte} {k : Nat} : (l.drop k).all (fun x => x == 0) = true ↔
    ∀ j, k ≤ j → byteAt l j = 0 := by
  simp only [List.all_eq_true, beq_iff_eq, byteAt]
  refine ⟨fun hall j hj => ?_, fun hall x hx => ?_⟩
  · by_cases hlt : j < l.length
    · rw [getD_of_lt hlt]
      exact hall _ (List.mem_drop_iff_getElem.2 ⟨j - k, by omega, by simp [show k + (j - k) = j by omega]⟩)
    · exact getD_of_ge (Nat.not_lt.1 hlt)
  · obtain ⟨i, hi, rfl⟩ := List.mem_drop_iff_getElem.1 hx
    rw [← getD_of_lt (show k + i < l.length by omega) 0]
    exact hall _ (by omega)

theorem byteAt_slice_of_ge (b : List Byte) {a n o : Nat} (h : n ≤ o) : byteAt ((b.drop a).take n) o = 0 :=
  getD_of_ge (Nat.le_trans (List.length_take_le _ _) h)

theorem byteAt_eq_zero_iff {b : List Byte} {i : Nat} : byteAt b i = 0 ↔ field b i 1 = 0 := by
  rw [field_one]
  exact ⟨fun h => by rw [h]; rfl, fun h => BitVec.eq_of_toNat_eq h⟩

/-! ### The records of a body -/

/-- The region record at a place of a body (12.1). -/
def regionAt (body : List Byte) (i : Nat) : RawRegion :=
  { port := field body (128 + 32 * i + 0) 1, imageClass := field body (128 + 32 * i + 1) 1
    first := field body (128 + 32 * i + 2) 2, count := field body (128 + 32 * i + 4) 2
    write := field body (128 + 32 * i + 6) 1, read := field body (128 + 32 * i + 7) 1
    patrol := field body (128 + 32 * i + 8) 1
    reservedZero := (((body.drop (128 + 32 * i)).take 32).drop 9).all (fun x => x == 0) }

/-- The class entry at a place of a body whose class entries start at an offset (12.1). -/
def classAt (body : List Byte) (offset i : Nat) : RawClass :=
  { command := byteAt body (offset + 8 * i + 0), cls := field body (offset + 8 * i + 1) 1
    address := field body (offset + 8 * i + 2) 1, addressLanes := field body (offset + 8 * i + 3) 1
    dataLanes := field body (offset + 8 * i + 4) 1, dummy := field body (offset + 8 * i + 5) 1
    extent := field body (offset + 8 * i + 6) 1 }

theorem readRegion_eq (body : List Byte) (i : Nat) :
    readRegion ((body.drop (128 + 32 * i)).take 32) = regionAt body i := by
  unfold readRegion regionAt
  simp only [field_slice, Nat.reduceAdd, Nat.reduceLeDiff]

theorem readClass_eq (body : List Byte) (offset i : Nat) :
    readClass ((body.drop (offset + 8 * i)).take 8) = classAt body offset i := by
  unfold readClass classAt
  simp only [field_slice, byteAt_slice, Nat.reduceAdd, Nat.reduceLeDiff, Nat.reduceLT]

theorem reservedZero_iff {body : List Byte} {i : Nat} : (regionAt body i).reservedZero = true ↔
    ∀ j, 9 ≤ j → j < 32 → field body (128 + 32 * i + j) 1 = 0 := by
  change (((body.drop (128 + 32 * i)).take 32).drop 9).all (fun x => x == 0) = true ↔ _
  rw [all_zero_drop_iff]
  refine ⟨fun hall j hj hlt => ?_, fun hall j hj => ?_⟩
  · rw [← byteAt_eq_zero_iff, ← byteAt_slice body hlt]
    exact hall j hj
  · by_cases hlt : j < 32
    · rw [byteAt_slice body hlt, byteAt_eq_zero_iff]
      exact hall j hj hlt
    · exact byteAt_slice_of_ge body (Nat.not_lt.1 hlt)

/-- The body that a candidate's header and the bytes after it give. -/
def bodyOf (h rest : List Byte) : List Byte := (h ++ rest).take (headerBodyLength h)

theorem readCopy_regions (h rest : List Byte) :
    (readCopy h rest).regions = (List.range (headerRegionCount h)).map (regionAt (bodyOf h rest)) := by
  change (recordsAt (bodyOf h rest) 128 32 (headerRegionCount h)).map readRegion = _
  unfold recordsAt
  rw [List.map_map]
  exact List.map_congr_left fun i _ => readRegion_eq _ i

theorem readCopy_classes (h rest : List Byte) : (readCopy h rest).classes =
    (List.range (headerClassCount h)).map (classAt (bodyOf h rest) (classOffset h)) := by
  change (recordsAt (bodyOf h rest) (classOffset h) 8 (headerClassCount h)).map readClass = _
  unfold recordsAt
  rw [List.map_map]
  exact List.map_congr_left fun i _ => readClass_eq _ _ i

/-! ### The structure check, record by record (R53, R54) -/

theorem RawRegion.accepted_iff {r : RawRegion} : r.accepted = true ↔
    r.port ≤ 1 ∧ r.imageClass ≤ 7 ∧ r.first ≤ 1023 ∧ (1 ≤ r.count ∧ r.count ≤ 1024) ∧ r.write ≤ 2 ∧ r.read ≤ 1 ∧
      r.patrol ≤ 1 ∧ r.reservedZero = true := by
  simp only [RawRegion.accepted, Bool.and_eq_true, decide_eq_true_eq, and_assoc]

theorem RawRegion.fits_iff {h : List Byte} {r : RawRegion} : r.fits h = true ↔
    (1 ≤ sizeCodeOf h r.port ∧ sizeCodeOf h r.port ≤ 6) ∧
      r.first + r.count ≤ 2 ^ (sizeCodeOf h r.port - 1) * 32 := by
  simp only [RawRegion.fits, Bool.and_eq_true, decide_eq_true_eq]
  refine and_congr_right fun hcode => ?_
  unfold portCapacity
  rw [if_neg (by omega)]

/-- A record that fits lies below the highest segment of any port (R43). -/
theorem RawRegion.end_le_of_fits {h : List Byte} {r : RawRegion} (hfits : r.fits h = true) :
    r.first + r.count ≤ 1024 := by
  obtain ⟨⟨-, hcode⟩, hend⟩ := RawRegion.fits_iff.1 hfits
  have hpow : 2 ^ (sizeCodeOf h r.port - 1) ≤ 2 ^ 5 := Nat.pow_le_pow_right (by decide) (by omega)
  omega

/-- A record of segments on port 0 keeps clear of a run of segments exactly when they share none. -/
theorem RawRegion.meets_eq_false_iff {r : RawRegion} {first count : Nat} (hr : 1 ≤ r.count) (hcount : 1 ≤ count) :
    r.meets first count = false ↔
      (r.port = 0 → ∀ x, r.first ≤ x ∧ x < r.first + r.count → ¬ (first ≤ x ∧ x < first + count)) := by
  simp only [RawRegion.meets, Bool.and_eq_false_iff, decide_eq_false_iff_not]
  refine ⟨fun hclear hport x hx hin => by omega, fun hclear => ?_⟩
  by_cases hport : r.port = 0
  · have hmax := hclear hport (max r.first first)
    omega
  · exact .inl (.inl hport)

theorem RawRegion.overlaps_eq_false_iff {a b : RawRegion} (ha : 1 ≤ a.count) (hb : 1 ≤ b.count) :
    a.overlaps b = false ↔ (a.port = b.port → ∀ x, ¬ ((a.first ≤ x ∧ x < a.first + a.count) ∧
      (b.first ≤ x ∧ x < b.first + b.count))) := by
  simp only [RawRegion.overlaps, Bool.and_eq_false_iff, decide_eq_false_iff_not]
  refine ⟨fun hclear hport x hx => by omega, fun hclear => ?_⟩
  by_cases hport : a.port = b.port
  · have hmax := hclear hport (max a.first b.first)
    omega
  · exact .inl (.inl hport)

theorem noOverlap_iff {l : List RawRegion} : noOverlap l = true ↔ l.Pairwise (fun a b => a.overlaps b = false) := by
  induction l with
  | nil => simp [noOverlap]
  | cons a l ih => simp only [noOverlap, Bool.and_eq_true, List.all_eq_true, Bool.not_eq_true', List.pairwise_cons, ih]

theorem distinctCommands_iff {l : List RawClass} :
    distinctCommands l = true ↔ l.Pairwise (fun a b => b.command ≠ a.command) := by
  induction l with
  | nil => simp [distinctCommands]
  | cons a l ih => simp only [distinctCommands, Bool.and_eq_true, List.all_eq_true, decide_eq_true_eq,
      List.pairwise_cons, ih]

theorem laneCountGood_iff {n : Nat} : laneCountGood n = true ↔ n = 1 ∨ n = 2 ∨ n = 4 := by
  simp only [laneCountGood, Bool.or_eq_true, beq_iff_eq, or_assoc]

theorem RawClass.accepted_iff {e : RawClass} : e.accepted = true ↔
    e.command ≠ escapeByte ∧ e.cls ≤ 6 ∧ (e.address = 0 ∨ e.address = 3 ∨ e.address = 4 ∨ e.address = 5) ∧
      (e.addressLanes = 1 ∨ e.addressLanes = 2 ∨ e.addressLanes = 4) ∧
      (e.dataLanes = 1 ∨ e.dataLanes = 2 ∨ e.dataLanes = 4) ∧ e.dummy ≤ 15 ∧ (e.cls = 2 → e.extent ≤ 3) := by
  simp only [RawClass.accepted, Bool.and_eq_true, Bool.or_eq_true, decide_eq_true_eq, beq_iff_eq, laneCountGood_iff,
    or_assoc, and_assoc, ne_eq]
  exact ⟨fun ⟨hcls, haddress, hlanes, hdata, hdummy, hextent, hcommand⟩ =>
      ⟨hcommand, hcls, haddress, hlanes, hdata, hdummy, fun herase => hextent.resolve_left (not_not_intro herase)⟩,
    fun ⟨hcommand, hcls, haddress, hlanes, hdata, hdummy, hextent⟩ =>
      ⟨hcls, haddress, hlanes, hdata, hdummy, Decidable.not_or_of_imp hextent, hcommand⟩⟩

theorem maskBelow_iff {mask : BitVec 16} {n : Nat} :
    maskBelow mask n = true ↔ ∀ i, mask.getLsbD i = true → i < n := by
  simp only [maskBelow, List.all_eq_true, List.mem_range, Bool.or_eq_true, Bool.not_eq_true', decide_eq_true_eq]
  refine ⟨fun hall i hi => ?_, fun hall i _ => ?_⟩
  · have hlt : i < 16 := BitVec.lt_of_getLsbD hi
    exact (hall i hlt).resolve_left (by simp [hi])
  · cases hbit : mask.getLsbD i with
    | false => exact .inl rfl
    | true => exact .inr (hall i hbit)

/-- A mask lies within another exactly when each of its bits is set there (R54). -/
theorem and_not_eq_zero_iff {a b : BitVec 16} :
    a &&& ~~~b = 0 ↔ ∀ i, a.getLsbD i = true → b.getLsbD i = true := by
  refine ⟨fun hzero i hi => ?_, fun hall => BitVec.eq_of_getLsbD_eq fun i hi => ?_⟩
  · have hlt : i < 16 := BitVec.lt_of_getLsbD hi
    have hbit := congrArg (fun v : BitVec 16 => v.getLsbD i) hzero
    simpa [hi, hlt] using hbit
  · cases ha : a.getLsbD i with
    | false => simp [ha]
    | true => simp [ha, hall i ha, hi]

/-! ### The structure check, list by list -/

theorem regionsGood_iff {f : Fuses} {h : List Byte} {copy : CandidateCopy} : regionsGood f h copy = true ↔
    (1 ≤ headerRegionCount h ∧ headerRegionCount h ≤ 16) ∧
    (∃ r, copy.regions[0]? = some r ∧ r.port = 0) ∧
    (∀ r ∈ copy.regions, r.accepted = true) ∧ (∀ r ∈ copy.regions, r.fits h = true) ∧
    copy.regions.Pairwise (fun a b => a.overlaps b = false) ∧
    (∀ r ∈ copy.regions, r.meets (4 * f.primaryBase.toNat) 4 = false) ∧
    (∀ r ∈ copy.regions, r.meets (4 * f.fallbackBase.toNat) 4 = false) ∧
    (∀ r ∈ copy.regions, f.windowCount = 0 ∨ r.meets f.recoveryBase.toNat f.windowCount = false) ∧
    headerDigestCount h = (copy.regions.map (·.count)).sum ∧ (copy.regions.map (·.count)).sum ≤ 2048 := by
  unfold regionsGood
  cases copy.regions with
  | nil => simp
  | cons r l =>
    simp only [Bool.and_eq_true, decide_eq_true_eq, List.all_eq_true, Bool.not_eq_true', Bool.or_eq_true,
      noOverlap_iff, and_assoc, List.getElem?_cons_zero, Option.some.injEq, exists_eq_left']
    exact Iff.rfl

theorem remainderGood_iff {h : List Byte} {copy : CandidateCopy} : remainderGood h copy = true ↔
    (1 ≤ headerSize0 h ∧ headerSize0 h ≤ 6 ∧ headerSize1 h ≤ 6) ∧ headerClassCount h ≤ 32 ∧
    (∀ e ∈ copy.classes, e.accepted = true) ∧ copy.classes.Pairwise (fun a b => b.command ≠ a.command) ∧
    ((headerRevoke h).toNat < 16 ∧ (headerRevoke h).getLsbD (headerSlot h) = false) ∧
    (∀ i, (headerPrintMask h).getLsbD i = true → i < headerRegionCount h) ∧
    (∀ i, (headerScanMask h).getLsbD i = true → i < headerRegionCount h ∧ (headerPrintMask h).getLsbD i = true) ∧
    (headerPrintMask h).getLsbD 0 = true ∧ (headerScanMask h).getLsbD 0 = true := by
  unfold remainderGood
  simp only [Bool.and_eq_true, decide_eq_true_eq, List.all_eq_true, Bool.not_eq_true', distinctCommands_iff,
    maskBelow_iff, and_not_eq_zero_iff, and_assoc]
  exact ⟨fun ⟨hone, hsix, hsize, hcount, haccepted, hdistinct, hflags, hslot, hprint, hscan, hprint0, hscan0, hwithin⟩ =>
      ⟨hone, hsix, hsize, hcount, haccepted, hdistinct, hflags, hslot, hprint, fun i hi => ⟨hscan i hi, hwithin i hi⟩,
        hprint0, hscan0⟩,
    fun ⟨hone, hsix, hsize, hcount, haccepted, hdistinct, hflags, hslot, hprint, hscan, hprint0, hscan0⟩ =>
      ⟨hone, hsix, hsize, hcount, haccepted, hdistinct, hflags, hslot, hprint, fun i hi => (hscan i hi).1, hprint0,
        hscan0, fun i hi => (hscan i hi).2⟩⟩

end Sys2Proof.Machine
end

section
/-!
The manifest's bytes (12.1): the structure check of a candidate copy said of its bytes, the tables in force, and the
segment of each digest.
-/
namespace Sys2Proof.Machine

/-! ### The region records of a copy (R53) -/

/-- A record's run of segments on its port. -/
def RawRegion.holds (r : RawRegion) (x : Nat) : Prop := r.first ≤ x ∧ x < r.first + r.count

/-- A record on port 0 keeps clear of both anchor areas and the recovery window (R32, R33, R53). -/
def RawRegion.clear (f : Fuses) (r : RawRegion) : Prop :=
  ∀ x, r.port = 0 → r.holds x →
    ¬ (4 * f.primaryBase.toNat ≤ x ∧ x < 4 * f.primaryBase.toNat + 4) ∧
    ¬ (4 * f.fallbackBase.toNat ≤ x ∧ x < 4 * f.fallbackBase.toNat + 4) ∧
    ¬ (f.recoveryBase.toNat ≤ x ∧ x < f.recoveryBase.toNat + f.recoveryCount.toNat)

/-- The window's segments beyond port 0 meet no record, for a record lies within its port (R33). -/
theorem RawRegion.window_iff {f : Fuses} {r : RawRegion} (hcount : 1 ≤ r.count) (hend : r.first + r.count ≤ 1024) :
    (f.windowCount = 0 ∨ r.meets f.recoveryBase.toNat f.windowCount = false) ↔
      (r.port = 0 → ∀ x, r.holds x →
        ¬ (f.recoveryBase.toNat ≤ x ∧ x < f.recoveryBase.toNat + f.recoveryCount.toNat)) := by
  have hwindow : f.windowCount = min (f.recoveryBase.toNat + f.recoveryCount.toNat) 1024 - f.recoveryBase.toNat := rfl
  have hsame : ∀ x, r.holds x → ((f.recoveryBase.toNat ≤ x ∧ x < f.recoveryBase.toNat + f.windowCount) ↔
      (f.recoveryBase.toNat ≤ x ∧ x < f.recoveryBase.toNat + f.recoveryCount.toNat)) := by
    intro x hx
    unfold RawRegion.holds at hx
    omega
  by_cases hnone : f.windowCount = 0
  · refine iff_of_true (.inl hnone) fun _ x hx hin => ?_
    have hin' := (hsame x hx).2 hin
    omega
  · rw [or_iff_right hnone, RawRegion.meets_eq_false_iff hcount (by omega)]
    exact imp_congr_right fun _ => forall_congr' fun x => forall_congr' fun hx => not_congr (hsame x hx)

theorem RawRegion.clear_iff {f : Fuses} {r : RawRegion} (hcount : 1 ≤ r.count) (hend : r.first + r.count ≤ 1024) :
    (r.meets (4 * f.primaryBase.toNat) 4 = false ∧ r.meets (4 * f.fallbackBase.toNat) 4 = false ∧
      (f.windowCount = 0 ∨ r.meets f.recoveryBase.toNat f.windowCount = false)) ↔ r.clear f := by
  rw [RawRegion.window_iff hcount hend, RawRegion.meets_eq_false_iff hcount (by decide),
    RawRegion.meets_eq_false_iff hcount (by decide)]
  exact ⟨fun ⟨hp, hf, hw⟩ x hport hx => ⟨hp hport x hx, hf hport x hx, hw hport x hx⟩,
    fun hclear => ⟨fun hport x hx => (hclear x hport hx).1, fun hport x hx => (hclear x hport hx).2.1,
      fun hport x hx => (hclear x hport hx).2.2⟩⟩

/-- A symmetric relation holds pairwise of 0 .. n − 1 when it holds of any two different ones. -/
theorem pairwise_range_iff {R : Nat → Nat → Prop} (hsymm : ∀ i j, R i j → R j i) (n : Nat) :
    (List.range n).Pairwise R ↔ ∀ i j, i < n → j < n → i ≠ j → R i j := by
  rw [List.pairwise_iff_getElem]
  simp only [List.length_range, List.getElem_range]
  refine ⟨fun hall i j hi hj hne => ?_, fun hall i j hi hj hlt => hall i j hi hj (Nat.ne_of_lt hlt)⟩
  rcases Nat.lt_or_gt_of_ne hne with hlt | hgt
  · exact hall i j hi hj hlt
  · exact hsymm j i (hall j i hj hi hgt)

theorem RawRegion.overlaps_symm {a b : RawRegion} (h : a.overlaps b = false) : b.overlaps a = false := by
  rw [← h]
  unfold RawRegion.overlaps
  rw [Bool.and_assoc, Bool.and_assoc, Bool.and_comm (decide (b.first < _)), decide_eq_decide.2 (eq_comm (a := b.port))]

theorem RawRegion.count_pos_of_accepted {r : RawRegion} (h : r.accepted = true) : 1 ≤ r.count := by
  obtain ⟨-, -, -, ⟨hcount, -⟩, -⟩ := RawRegion.accepted_iff.1 h
  exact hcount

theorem regionsGood_readCopy_iff {f : Fuses} {h rest : List Byte} :
    regionsGood f h (readCopy h rest) = true ↔
    (1 ≤ headerRegionCount h ∧ headerRegionCount h ≤ 16) ∧ (regionAt (bodyOf h rest) 0).port = 0 ∧
    (∀ i, i < headerRegionCount h → (regionAt (bodyOf h rest) i).accepted = true) ∧
    (∀ i, i < headerRegionCount h → (regionAt (bodyOf h rest) i).fits h = true) ∧
    (∀ i j, i < headerRegionCount h → j < headerRegionCount h → i ≠ j →
      (regionAt (bodyOf h rest) i).port = (regionAt (bodyOf h rest) j).port →
      ∀ x, ¬ ((regionAt (bodyOf h rest) i).holds x ∧ (regionAt (bodyOf h rest) j).holds x)) ∧
    (∀ i, i < headerRegionCount h → (regionAt (bodyOf h rest) i).clear f) ∧
    headerDigestCount h = ((List.range (headerRegionCount h)).map (fun i => (regionAt (bodyOf h rest) i).count)).sum ∧
    headerDigestCount h ≤ 2048 := by
  rw [regionsGood_iff, readCopy_regions, List.map_map]
  simp only [List.forall_mem_map, List.mem_range, List.pairwise_map]
  refine and_congr_right fun ⟨hone, _⟩ => and_congr ?_ (and_congr_right fun haccepted => and_congr_right fun hfits => ?_)
  · rw [List.getElem?_map, List.getElem?_range (by omega)]
    simp
  · have hcount : ∀ i, i < headerRegionCount h → 1 ≤ (regionAt (bodyOf h rest) i).count := fun i hi =>
      RawRegion.count_pos_of_accepted (haccepted i hi)
    have hclear : ∀ i, (hi : i < headerRegionCount h) → _ := fun i hi =>
      RawRegion.clear_iff (f := f) (hcount i hi) (RawRegion.end_le_of_fits (hfits i hi))
    refine and_congr ?_ ?_
    · rw [pairwise_range_iff fun i j => RawRegion.overlaps_symm]
      exact forall₂_congr fun i j => forall₃_congr fun hi hj _ => RawRegion.overlaps_eq_false_iff (hcount i hi) (hcount j hj)
    · rw [← and_assoc, ← and_assoc]
      refine and_congr ?_ (and_congr_right fun hsum => by rw [hsum])
      rw [and_assoc]
      refine ⟨fun ⟨hp, hf, hw⟩ i hi => (hclear i hi).1 ⟨hp i hi, hf i hi, hw i hi⟩, fun hall => ?_⟩
      exact ⟨fun i hi => ((hclear i hi).2 (hall i hi)).1, fun i hi => ((hclear i hi).2 (hall i hi)).2.1,
        fun i hi => ((hclear i hi).2 (hall i hi)).2.2⟩

/-! ### The class entries and the masks of a copy (R54) -/

theorem byteAt_eq_iff {a b : List Byte} {i j : Nat} : byteAt a i = byteAt b j ↔ field a i 1 = field b j 1 := by
  rw [field_one, field_one, BitVec.toNat_inj]

theorem byteAt_eq_const_iff {b : List Byte} {i : Nat} {c : Byte} : byteAt b i = c ↔ field b i 1 = c.toNat := by
  rw [field_one, BitVec.toNat_inj]

theorem headerMask_bit (h : List Byte) (i : Nat) :
    ((headerPrintMask h).getLsbD i = (field h 26 2).testBit i) ∧
      ((headerScanMask h).getLsbD i = (field h 28 2).testBit i) := ⟨flags16_bit h 26 i, flags16_bit h 28 i⟩

theorem remainderGood_readCopy_iff {h rest : List Byte} : remainderGood h (readCopy h rest) = true ↔
    (1 ≤ headerSize0 h ∧ headerSize0 h ≤ 6 ∧ headerSize1 h ≤ 6) ∧ headerClassCount h ≤ 32 ∧
    (∀ i, i < headerClassCount h → (classAt (bodyOf h rest) (classOffset h) i).accepted = true) ∧
    (∀ i j, i < headerClassCount h → j < headerClassCount h → i ≠ j →
      field (bodyOf h rest) (classOffset h + 8 * i + 0) 1 ≠ field (bodyOf h rest) (classOffset h + 8 * j + 0) 1) ∧
    (field h 6 1 < 16 ∧ (field h 6 1).testBit (headerSlot h) = false) ∧
    (∀ i, (field h 26 2).testBit i = true → i < headerRegionCount h) ∧
    (∀ i, (field h 28 2).testBit i = true → i < headerRegionCount h ∧ (field h 26 2).testBit i = true) ∧
    (field h 26 2).testBit 0 = true ∧ (field h 28 2).testBit 0 = true := by
  rw [remainderGood_iff, readCopy_classes]
  simp only [List.forall_mem_map, List.mem_range, List.pairwise_map, (headerMask_bit h _).1, (headerMask_bit h _).2]
  rw [pairwise_range_iff fun i j hne => hne.symm]
  have hcommand : ∀ i j, (classAt (bodyOf h rest) (classOffset h) j).command ≠
      (classAt (bodyOf h rest) (classOffset h) i).command ↔
      field (bodyOf h rest) (classOffset h + 8 * i + 0) 1 ≠ field (bodyOf h rest) (classOffset h + 8 * j + 0) 1 :=
    fun i j => (not_congr byteAt_eq_iff).trans ne_comm
  simp only [hcommand, field_one h 6]
  exact Iff.rfl

theorem structureGood_readCopy_iff {f : Fuses} {h rest : List Byte} :
    structureGood f h (readCopy h rest) = true ↔
      regionsGood f h (readCopy h rest) = true ∧ remainderGood h (readCopy h rest) = true := by
  unfold structureGood
  rw [Bool.and_eq_true]

/-! ### The settings and the signature of a copy (R47, R50) -/

theorem clampPatrol_eq (v : Nat) : clampPatrol v = if 0 < v ∧ v < 10 then 10 else v := by
  unfold clampPatrol
  by_cases hzero : v = 0
  · rw [if_pos hzero, if_neg (by omega), hzero]
  · rw [if_neg hzero]
    by_cases hlow : v < 10
    · rw [if_pos hlow, if_pos ⟨Nat.pos_of_ne_zero hzero, hlow⟩]
    · rw [if_neg hlow, if_neg fun hboth => hlow hboth.2]

/-- The settings carried at an offset of a body, clamped (R47). -/
theorem readSettings_eq (body : List Byte) (a : Nat) : readSettings ((body.drop a).take 64) =
    { deadline := field body (a + 0) 2, interval := field body (a + 6) 1
      holdoff := if 1023 < field body (a + 2) 2 then 1023 else field body (a + 2) 2
      patrol := if 0 < field body (a + 4) 2 ∧ field body (a + 4) 2 < 10 then 10 else field body (a + 4) 2
      alertMode := if field body (a + 7) 1 = 0 then .level else .pulse
      printSet := BitVec.ofNat 4 (field body (a + 8) 1), scanSet := BitVec.ofNat 4 (field body (a + 9) 1)
      unlisted := if field body (a + 10) 1 = 0 then .pass else .block } := by
  have hzero : ∀ i, byteAt body i = 0 ↔ field body i 1 = 0 := fun i => byteAt_eq_zero_iff
  have hflags : ∀ i, (byteAt body i).setWidth 4 = BitVec.ofNat 4 (field body i 1) := fun i => by
    rw [field_one]
    rfl
  unfold readSettings
  simp only [field_slice, byteAt_slice, Nat.reduceAdd, Nat.reduceLeDiff, Nat.reduceLT, clampPatrol_eq, clampHoldoff,
    clampAlertMode, clampTriggers, clampUnlisted, hzero, hflags]

/-! ### The tables in force (R41, R44, R45) -/

/-- The region in force holds the fields of its record (R44). -/
theorem toRegion_fields {r : RawRegion} (h : r.accepted = true) :
    portNumber r.toRegion.port = r.port ∧
    (match r.toRegion.write with | .deny => 0 | .denyTrip => 1 | .allowMark => 2) = r.write ∧
    (match r.toRegion.read with | .pass => 0 | .blank => 1) = r.read ∧
    (if r.toRegion.patrol then 1 else 0) = r.patrol := by
  obtain ⟨hport, -, -, -, hwrite, hread, hpatrol, -⟩ := RawRegion.accepted_iff.1 h
  obtain ⟨port, imageClass, first, count, write, read, patrol, zero⟩ := r
  dsimp only at hport hwrite hread hpatrol
  refine ⟨?_, ?_, ?_, ?_⟩
  · rcases (by omega : port = 0 ∨ port = 1) with rfl | rfl <;> rfl
  · rcases (by omega : write = 0 ∨ write = 1 ∨ write = 2) with rfl | rfl | rfl <;> rfl
  · rcases (by omega : read = 0 ∨ read = 1) with rfl | rfl <;> rfl
  · rcases (by omega : patrol = 0 ∨ patrol = 1) with rfl | rfl <;> rfl

theorem classOf_erase {n : Nat} (h : classOf n = .erase) : n = 2 := by
  unfold classOf at h
  split at h <;> simp_all

/-- The class table's entry holds the fields of its record (R45). -/
theorem toEntry_fields {e : RawClass} (h : e.accepted = true) :
    (match e.toEntry.cls with
      | .read => 0 | .program => 1 | .erase => 2 | .mode4 => 3 | .mode3 => 4 | .pass => 5 | .block => 6) = e.cls ∧
    (match e.toEntry.address with | .zero => 0 | .three => 3 | .four => 4 | .track => 5) = e.address ∧
    (match e.toEntry.addressLanes with | .one => 1 | .two => 2 | .four => 4) = e.addressLanes ∧
    (match e.toEntry.dataLanes with | .one => 1 | .two => 2 | .four => 4) = e.dataLanes ∧
    (e.toEntry.cls = .erase →
      (match e.toEntry.extent with | .kib4 => 0 | .kib32 => 1 | .kib64 => 2 | .whole => 3) = e.extent) := by
  obtain ⟨-, hcls, haddress, hlanes, hdata, -, hextent⟩ := RawClass.accepted_iff.1 h
  obtain ⟨command, cls, address, addressLanes, dataLanes, dummy, extent⟩ := e
  dsimp only at hcls haddress hlanes hdata hextent
  refine ⟨?_, ?_, ?_, ?_, fun herase => ?_⟩
  · rcases (by omega : cls = 0 ∨ cls = 1 ∨ cls = 2 ∨ cls = 3 ∨ cls = 4 ∨ cls = 5 ∨ cls = 6) with
      rfl | rfl | rfl | rfl | rfl | rfl | rfl <;> rfl
  · rcases haddress with rfl | rfl | rfl | rfl <;> rfl
  · rcases hlanes with rfl | rfl | rfl <;> rfl
  · rcases hdata with rfl | rfl | rfl <;> rfl
  · have hlow := hextent (classOf_erase herase)
    rcases (by omega : extent = 0 ∨ extent = 1 ∨ extent = 2 ∨ extent = 3) with rfl | rfl | rfl | rfl <;> rfl

/-! ### The segment of each digest (R49, R79) -/

/-- The segments of a list of regions whose indices start at a number (R49). -/
def segmentsFrom (k : Nat) (regions : List Region) : List (Nat × Nat) :=
  (regions.zipIdx k).flatMap (fun e => (List.range e.1.count).map (fun j => (e.1.segmentAt j, e.2)))

theorem segmentsFrom_cons (k : Nat) (r : Region) (l : List Region) : segmentsFrom k (r :: l) =
    (List.range r.count).map (fun j => (r.segmentAt j, k)) ++ segmentsFrom (k + 1) l := rfl

theorem segmentsFrom_length (k : Nat) (l : List Region) : (segmentsFrom k l).length = (l.map (·.count)).sum := by
  induction l generalizing k with
  | nil => rfl
  | cons r l ih => simp [segmentsFrom_cons, ih]

/-- A digest's place in the list is the number of segments of the regions before its own, then its place in it. -/
theorem segmentsFrom_getElem (l : List Region) : ∀ (k i : Nat) (r : Region) (p : Nat), l[i]? = some r → p < r.count →
    (segmentsFrom k l)[((l.take i).map (·.count)).sum + p]? = some (r.segmentAt p, k + i) := by
  induction l with
  | nil => intro k i r p h; cases h
  | cons a l ih =>
    intro k i r p h hp
    rw [segmentsFrom_cons]
    cases i with
    | zero =>
      obtain rfl : a = r := by simpa using h
      rw [List.getElem?_append_left (by simpa using hp)]
      simp [hp]
    | succ i =>
      have hrest := ih (k + 1) i r p (by simpa using h) hp
      rw [List.getElem?_append_right (by simp; omega)]
      simp only [List.take_succ_cons, List.map_cons, List.sum_cons, List.length_map, List.length_range]
      rw [show a.count + ((l.take i).map (·.count)).sum + p - a.count = ((l.take i).map (·.count)).sum + p by omega,
        hrest, show k + 1 + i = k + (i + 1) by omega]

theorem buildSegments_length {regions : List Region} {ds : List Digest}
    (h : ds.length = (regions.map (·.count)).sum) : (buildSegments regions ds).length = ds.length := by
  have hlen : (segmentOrder regions).length = ds.length := (segmentsFrom_length 0 regions).trans h.symm
  unfold buildSegments
  rw [List.length_map, List.length_zip, hlen, Nat.min_self]

theorem buildSegments_getElem {regions : List Region} {ds : List Digest} {i p : Nat} {r : Region} {d : Digest}
    (hr : regions[i]? = some r) (hp : p < r.count)
    (hd : ds[((regions.take i).map (·.count)).sum + p]? = some d) :
    (buildSegments regions ds)[((regions.take i).map (·.count)).sum + p]? = some
      { seg := portNumber r.port * 1024 + r.first + p, digest := d, state := .unseen, region := i
        parity := Config.segParity d i } := by
  have horder := segmentsFrom_getElem regions 0 i r p hr hp
  rw [Nat.zero_add] at horder
  have hpair : ((segmentOrder regions).zip ds)[((regions.take i).map (·.count)).sum + p]? =
      some ((r.segmentAt p, i), d) := List.getElem?_zip_eq_some.2 ⟨horder, hd⟩
  unfold buildSegments
  rw [List.getElem?_map, hpair]
  rfl

/-- Settles O10: each conjunct by the lemma on its part of the bytes. -/
theorem manifestIsReadAndCheckedByItsBytes : Obligations.ManifestIsReadAndCheckedByItsBytes := by
  intro f h rest n m digests good small provisioned revoked body copy region entry setting port covers size laneCount lanes
  have hformat : formatGood h = true ↔ good := formatGood_iff
  obtain ⟨hbad, hlarge, habsent, hrevoked, hnone⟩ := headerReject_iff f h
  rw [hformat] at hbad hlarge habsent hrevoked hnone
  refine ⟨hbad, hlarge, habsent, hrevoked, hnone, ?_, readSettings_eq _ _, ?_, rfl, ?_, fun hgood => ?_,
    fun regions ds hlen => ⟨buildSegments_length hlen, fun i r p d hr hp hd => buildSegments_getElem hr hp hd⟩⟩
  · rw [structureGood_readCopy_iff, regionsGood_readCopy_iff, remainderGood_readCopy_iff]
    have hrecord : ∀ i, (regionAt (bodyOf h rest) i).accepted = true ↔ _ := fun i =>
      (RawRegion.accepted_iff.trans (by rw [reservedZero_iff]))
    have hfit : ∀ i, (regionAt (bodyOf h rest) i).fits h = true ↔ _ := fun i => RawRegion.fits_iff
    have hentry : ∀ i, (classAt (bodyOf h rest) (classOffset h) i).accepted = true ↔ _ := fun i =>
      (RawClass.accepted_iff.trans (and_congr_left fun _ => not_congr byteAt_eq_const_iff))
    constructor
    · rintro ⟨⟨hcount, hfirst, hrecords, hfits, hapart, hclear, hsum, hmost⟩, hsizes, hclasses, hentries, hcommands, hmasks⟩
      exact ⟨hcount, hfirst, fun i hi => (hrecord i).1 (hrecords i hi), fun i hi => (hfit i).1 (hfits i hi),
        fun i j x hi hj hne hport => hapart i j hi hj hne hport x, fun i x hi => hclear i hi x, ⟨hsum, hmost⟩, hsizes,
        hclasses, fun i hi => (hentry i).1 (hentries i hi), hcommands, hmasks⟩
    · rintro ⟨hcount, hfirst, hrecords, hfits, hapart, hclear, ⟨hsum, hmost⟩, hsizes, hclasses, hentries, hcommands, hmasks⟩
      exact ⟨⟨hcount, hfirst, fun i hi => (hrecord i).2 (hrecords i hi), fun i hi => (hfit i).2 (hfits i hi),
        fun i j hi hj hne hport x => hapart i j x hi hj hne hport, fun i hi x => hclear i x hi, hsum, hmost⟩, hsizes,
        hclasses, fun i hi => (hentry i).2 (hentries i hi), hcommands, hmasks⟩
  · change (recordsAt body (digestOffset h) 32 (headerDigestCount h)).map readDigest = _
    unfold recordsAt
    rw [List.map_map]
    rfl
  · unfold candidateSigned
    dsimp only
    rw [List.drop_drop]
    rfl
  · obtain ⟨hregions, hremainder⟩ := structureGood_readCopy_iff.1 hgood
    obtain ⟨-, -, haccepted, -⟩ := regionsGood_readCopy_iff.1 hregions
    obtain ⟨-, -, hentries, -⟩ := remainderGood_readCopy_iff.1 hremainder
    refine ⟨?_, ?_, fun i hi => ?_, fun i hi => ?_⟩
    · rw [readCopy_regions, List.length_map, List.length_range]
      rfl
    · rw [readCopy_classes, List.length_map, List.length_range]
      rfl
    · have hi' : i < headerRegionCount h := hi
      obtain ⟨hport, hwrite, hread, hpatrol⟩ := toRegion_fields (haccepted i hi)
      refine ⟨(regionAt body i).toRegion, ?_, hport, rfl, rfl, rfl, hwrite, hread, hpatrol, rfl⟩
      rw [readCopy_regions, List.map_map, List.getElem?_map, List.getElem?_range hi']
      rfl
    · have hi' : i < headerClassCount h := hi
      obtain ⟨hcls, haddress, hlanes, hdata, hextent⟩ := toEntry_fields (hentries i hi)
      refine ⟨(classAt body (classOffset h) i).toEntry, ?_, (field_one _ _).symm, hcls, haddress, hlanes, hdata, rfl,
        hextent⟩
      rw [readCopy_classes, List.map_map, List.getElem?_map, List.getElem?_range hi']
      rfl

end Sys2Proof.Machine
end

section
/-!
Acceptance (R65): the commit of a candidate whose checks pass, the tamper level found at entry to RUN, gates that do
not rise on a table of UNSEEN segments, and the engine's judgment.
-/
namespace Sys2Proof.Machine
variable {s : State}

/-! ### A table of UNSEEN segments -/

theorem buildSegments_unseen {regions : List Region} {ds : List Digest} {e : SegEntry}
    (h : e ∈ buildSegments regions ds) : e.state = .unseen ∧ e.parity = Config.segParity e.digest e.region := by
  obtain ⟨x, -, rfl⟩ := List.mem_map.1 h
  exact ⟨rfl, rfl⟩

namespace State

/-- A gate whose mask holds a region of segments none of which is VERIFIED does not rise (R138). -/
theorem gateGood_of_unverified {g : Gate} (hmask : g.mask.getLsbD 0 = true)
    (hregion : ∃ r, s.regions[0]? = some r ∧ 1 ≤ r.count) (hsegments : ∀ e ∈ s.segments, e.state ≠ .verified) :
    s.gateGood g = false := by
  refine Bool.eq_false_iff.2 fun hgood => ?_
  obtain ⟨-, -, hproven, -⟩ := (s.gateGood_iff g).1 hgood
  obtain ⟨r, hr, -, hverified⟩ := hproven 0 (by decide) hmask
  obtain ⟨r', hr', hcount⟩ := hregion
  rw [hr, Option.some.injEq] at hr'
  subst hr'
  have hstate := hverified 0 hcount
  unfold segState at hstate
  obtain ⟨e, he, hst⟩ := Option.map_eq_some_iff.1 hstate
  exact hsegments e (List.mem_of_find?_eq_some he) hst

/-- Gates that are OFF and may not rise stay OFF (R140, R142). -/
theorem settleGates_of_unproven (hprint : s.gateGood s.gates.print = false) (hscan : s.gateGood s.gates.scan = false)
    (hoff : s.gates.print.state = .off) : s.settleGates = s.setScan .off := by
  rw [settleGates_eq, settlePrint_of_rest (.inr ⟨hprint, .inl hoff⟩), hscan]
  rfl

/-! ### The engine's judgment of a table with no verdict -/

theorem startRead_segments (s : State) (j : Job) (r : FetchRead) : (s.startRead j r).segments = s.segments := by
  obtain ⟨a, b, h⟩ := s.startRead_frame j r
  rw [h]

/-- A table in which every segment is UNSEEN or HASHING. -/
def unjudged (s : State) : Prop := ∀ e ∈ s.segments, e.state = .unseen ∨ e.state = .hashing

theorem unjudged_of_segments {t : State} (h : t.segments = s.segments) (hs : s.unjudged) : t.unjudged := by
  unfold unjudged
  rw [h]
  exact hs

theorem startFill_unjudged (hs : s.unjudged) (g : Nat) : (s.startFill g).unjudged := by
  cases hslot : s.pool.freeSlot with
  | none =>
    unfold startFill
    rw [hslot]
    exact hs
  | some i =>
    intro e he
    rw [startFill_eq hslot, startRead_segments] at he
    obtain ⟨x, hx, rfl⟩ := List.mem_map.1 he
    split
    · exact .inr rfl
    · exact hs x hx

theorem startPatrol_segments (s : State) (g : Nat) : (s.startPatrol g).segments = s.segments := by
  cases hslot : s.pool.freeSlot with
  | none =>
    unfold startPatrol
    rw [hslot]
  | some i =>
    rw [startPatrol_eq hslot, startRead_segments]
    rfl

theorem resume_segments (s : State) (i : Nat) : (s.resume i).segments = s.segments := by
  cases hc : s.pool.context i with
  | none =>
    unfold resume
    rw [hc]
  | some c =>
    cases hrole : c.role with
    | verify =>
      rw [resume_verify hc hrole, startRead_segments]
      rfl
    | patrol =>
      rw [resume_patrol hc hrole, startRead_segments]
      rfl

theorem freePatrol_segments (s : State) (i : Nat) : (s.freePatrol i).segments = s.segments := by
  unfold freePatrol
  dsimp only
  cases s.pool.context i <;> rfl

theorem judgeWith_unjudged (n : Nat) : ∀ {s : State}, s.unjudged → (State.judgeWith n s).unjudged := by
  induction n with
  | zero => exact fun hs => hs
  | succ n ih =>
    intro s hs
    unfold judgeWith
    split
    · cases s.candidate with
      | fill g => exact startFill_unjudged hs g
      | resumeFill i => exact unjudged_of_segments (s.resume_segments i) hs
      | resumePatrol i => exact unjudged_of_segments (s.resume_segments i) hs
      | freePatrol i => exact ih (unjudged_of_segments (s.freePatrol_segments i) hs)
      | startPatrol g => exact unjudged_of_segments (s.startPatrol_segments g) hs
      | nothing => exact hs
    · exact hs

/-! ### The commit and the tamper level at entry to RUN -/

/-- The part at its entry to RUN, the tamper level judged (R155). -/
def tamperJudged (s : State) : State :=
  { s with
    faults := if s.gates.tamper then pushRecord s.faults ⟨.tamper, s.time, .run, none, none, none, 1⟩ else s.faults
    alert := if s.gates.tamper then s.alert.push s.settings.alertMode s.time else s.alert
    gates := { s.gates with
      print := { s.gates.print with
        latch := s.gates.print.latch || (s.gates.tamper && s.settings.printSet.getLsbD 1) }
      scan := { s.gates.scan with
        latch := s.gates.scan.latch || (s.gates.tamper && s.settings.scanSet.getLsbD 1) } } }

/-- The tamper level found asserted pushes its record and trips; found deasserted it does nothing (R155). -/
theorem tamperAtEntry_eq (hphase : s.control.phase = .run) : s.tamperAtEntry = s.tamperJudged := by
  unfold tamperAtEntry tamperJudged
  by_cases htamper : s.gates.tamper = true
  · have hlatch : ∀ x : Bool, (s.gates.tamper && x) = x := fun x => by rw [htamper, Bool.true_and]
    rw [if_pos htamper, if_pos htamper, if_pos htamper, hlatch, hlatch,
      pushFault_of_not_halted (by rw [hphase]; decide), hphase]
    rfl
  · have hlatch : ∀ l x : Bool, (l || (s.gates.tamper && x)) = l := fun l x => by
      rw [Bool.eq_false_iff.2 htamper, Bool.false_and, Bool.or_false]
    rw [if_neg htamper, if_neg htamper, if_neg htamper, hlatch, hlatch]

theorem judgeBody_of_pass {bytes : List Byte} {c : Candidate} {rest : List Candidate} {copy : CandidateCopy}
    (hsigned : candidateSigned s.fuses c.header bytes copy = true)
    (hrollback : ∀ x ∈ s.fuses.differences (headerVersions c.header), 0 ≤ x)
    (hstructure : structureGood s.fuses c.header copy = true) : s.judgeBody c rest bytes copy =
      (s.commit c copy (s.fuses.differences (headerVersions c.header))).tamperAtEntry.settleGates.judge := by
  unfold judgeBody
  dsimp only
  rw [hsigned, rollbackClass_eq_none hrollback, hstructure]
  rfl

/-- The part with a candidate's tables committed, its gates still OFF (R65, R155). -/
def entered (s : State) (c : Candidate) (copy : CandidateCopy) (d : List Int) : State :=
  (s.commit c copy d).tamperJudged.setScan .off

/-- The masks hold region 0, whose segments are all UNSEEN: no gate rises at the commit (R54, R79, R140). -/
theorem commit_settles {c : Candidate} {bytes : List Byte} {d : List Int}
    (hstructure : structureGood s.fuses c.header (readCopy c.header bytes) = true) (hoff : s.gates.print.state = .off) :
    (s.commit c (readCopy c.header bytes) d).tamperAtEntry.settleGates = s.entered c (readCopy c.header bytes) d := by
  obtain ⟨hregions, hremainder⟩ := structureGood_readCopy_iff.1 hstructure
  obtain ⟨-, ⟨r, hr, -⟩, haccepted, -⟩ := regionsGood_iff.1 hregions
  obtain ⟨-, -, -, -, -, -, -, hprint, hscan⟩ := remainderGood_iff.1 hremainder
  have hregion : ∃ q, ((readCopy c.header bytes).regions.map RawRegion.toRegion)[0]? = some q ∧ 1 ≤ q.count :=
    ⟨r.toRegion, by rw [List.getElem?_map, hr]; rfl,
      RawRegion.count_pos_of_accepted (haccepted r (List.mem_of_getElem? hr))⟩
  have hunseen : ∀ e ∈ buildSegments ((readCopy c.header bytes).regions.map RawRegion.toRegion)
      (readCopy c.header bytes).digests, e.state ≠ .verified := fun e he hst => by
    rw [(buildSegments_unseen he).1] at hst
    cases hst
  unfold entered
  rw [tamperAtEntry_eq (by rfl)]
  exact settleGates_of_unproven (gateGood_of_unverified hprint hregion hunseen)
    (gateGood_of_unverified hscan hregion hunseen) hoff

end State

/-- Settles O11: the commit with the gates at rest, then the engine's judgment. -/
theorem acceptanceCommitsTheManifest : Obligations.AcceptanceCommitsTheManifest := by
  intro bytes s r c rest copy d h hkind hlist hlow hlen hhigh hcopy hd hsigned hrollback hstructure hprint hscan
    mode changed released
  subst hcopy hd
  have hexec : exec (.bodyReadEnd bytes) s = .next
      ((s.copied c rest (readCopy c.header bytes)).entered c (readCopy c.header bytes)
        (s.fuses.differences (headerVersions c.header))).judge := by
    rw [State.bodyEnd_of_read h hkind hlist hlow hlen hhigh,
      State.judgeBody_of_pass (s := s.copied c rest (readCopy c.header bytes)) hsigned hrollback hstructure]
    exact congrArg (fun t : State => Host.Outcome.next t.judge) (State.commit_settles hstructure hprint)
  have hunjudged : State.unjudged ((s.copied c rest (readCopy c.header bytes)).entered c (readCopy c.header bytes)
      (s.fuses.differences (headerVersions c.header))) := fun e he => .inl (buildSegments_unseen he).1
  have hchanged : s.alert.changeMode s.settings.alertMode mode s.faults.length s.time = changed := changeMode_eq ..
  refine ⟨_, _, hexec, rfl, rfl, rfl, rfl, rfl, rfl, rfl, rfl, rfl, ⟨_, rfl, rfl, rfl, rfl, rfl, fun x hx => ?_,
    fun x hx => ?_⟩, rfl, rfl, rfl, rfl, fun e he => buildSegments_unseen he, ?_, rfl, rfl, rfl, rfl, ?_, rfl, rfl, ?_,
    ?_, rfl, ?_, State.judgeWith_unjudged 2 hunjudged⟩
  · exact congrArg (fun y => Option.getD y _) hx
  · exact congrArg (fun y => Option.getD y _) hx
  · rw [← hprint]
    rfl
  · rw [← hchanged]
    rfl
  · exact s.abortedPort_released .p0
  · exact s.abortedPort_released .p1
  · obtain ⟨_, _, _, _, _, _, hjudged⟩ := ((s.copied c rest (readCopy c.header bytes)).entered c
      (readCopy c.header bytes) (s.fuses.differences (headerVersions c.header))).judge_frame
    rw [hjudged]

end Sys2Proof.Machine
end
